-- ==== Sys2Proof/Word.lean ====
section
/-! DEFINITION. The words of the swift8 core: bytes, 16-bit words, register numbers, and the bit field `w[hi:lo]` (R4, R8, R41). -/

namespace Sys2Proof

/-- An unsigned 8-bit value: a register, a timer, a byte of memory (R7, R8, R14). -/
abbrev Byte := BitVec 8

/-- An unsigned 16-bit value: an instruction word, I, PC, a stack entry (R10, R11, R12, R41). -/
abbrev Word := BitVec 16

/-- A 12-bit address immediate `nnn` (R41, R42). -/
abbrev Addr12 := BitVec 12

/-- The row count `n` of Dxyn, 0 to 15 (R41, R42). -/
abbrev RowCount := BitVec 4

/-- A general register number. Every nibble names a register, so none is malformed (R8, R44). -/
abbrev Reg := Fin 16

/-- A key code, 0 to 15 (R3, R103). -/
abbrev Key := BitVec 4

/-- Register VF, the flag register (R9). -/
abbrev Reg.vf : Reg := 15

/-- The field `w[hi:lo]` of a word, as an unsigned number (R4). -/
def field (w : Word) (hi lo : Nat) : Nat := w.toNat / 2 ^ lo % 2 ^ (hi + 1 - lo)

/-- The two bytes of a big-endian word, the more significant one first (R29, R30). -/
def wordOfBytes (hi lo : Byte) : Word := hi ++ lo

/-- The more significant byte of a word: the byte at the lower address (R29, R30). -/
def highByte (w : Word) : Byte := BitVec.ofNat 8 (w.toNat / 256)

/-- The less significant byte of a word (R29, R30). -/
def lowByte (w : Word) : Byte := BitVec.ofNat 8 w.toNat

end Sys2Proof
end

