-- ==== Sys2Proof/Syntax.lean ====
section
/-! DEFINITION. The 34 instructions of spec/opcode_table.json, one constructor per row, in the table's order (R43, R52). -/

namespace Sys2Proof

/-- The instruction of each opcode-table row. Operands: `x`, `y` registers; `kk` byte; `nnn` address; `n` row count (R41). -/
inductive Instr where
  /-- 00E0 `CLS` (R81) -/
  | cls
  /-- 00EE `RET` (R53) -/
  | ret
  /-- 1nnn `JP addr` (R54) -/
  | jp (nnn : Addr12)
  /-- 2nnn `CALL addr` (R55) -/
  | call (nnn : Addr12)
  /-- 3xkk `SE Vx, byte` (R56) -/
  | seByte (x : Reg) (kk : Byte)
  /-- 4xkk `SNE Vx, byte` (R57) -/
  | sneByte (x : Reg) (kk : Byte)
  /-- 5xy0 `SE Vx, Vy` (R58) -/
  | seReg (x y : Reg)
  /-- 6xkk `LD Vx, byte` (R62) -/
  | ldByte (x : Reg) (kk : Byte)
  /-- 7xkk `ADD Vx, byte` (R63) -/
  | addByte (x : Reg) (kk : Byte)
  /-- 8xy0 `LD Vx, Vy` (R64) -/
  | ldReg (x y : Reg)
  /-- 8xy1 `OR Vx, Vy` (R65) -/
  | orReg (x y : Reg)
  /-- 8xy2 `AND Vx, Vy` (R66) -/
  | andReg (x y : Reg)
  /-- 8xy3 `XOR Vx, Vy` (R67) -/
  | xorReg (x y : Reg)
  /-- 8xy4 `ADD Vx, Vy` (R68) -/
  | addReg (x y : Reg)
  /-- 8xy5 `SUB Vx, Vy` (R69) -/
  | subReg (x y : Reg)
  /-- 8xy6 `SHR Vx`; `y` is kept from the word and ignored by the meaning (R44, R50, R70) -/
  | shr (x y : Reg)
  /-- 8xy7 `SUBN Vx, Vy` (R71) -/
  | subnReg (x y : Reg)
  /-- 8xyE `SHL Vx`; `y` is kept from the word and ignored by the meaning (R44, R50, R72) -/
  | shl (x y : Reg)
  /-- 9xy0 `SNE Vx, Vy` (R59) -/
  | sneReg (x y : Reg)
  /-- Annn `LD I, addr` (R75) -/
  | ldI (nnn : Addr12)
  /-- Bnnn `JP V0, addr` (R60) -/
  | jpV0 (nnn : Addr12)
  /-- Cxkk `RND Vx, byte` (R73) -/
  | rnd (x : Reg) (kk : Byte)
  /-- Dxyn `DRW Vx, Vy, nibble` (R83) -/
  | drw (x y : Reg) (n : RowCount)
  /-- Ex9E `SKP Vx` (R85) -/
  | skp (x : Reg)
  /-- ExA1 `SKNP Vx` (R86) -/
  | sknp (x : Reg)
  /-- Fx07 `LD Vx, DT` (R87) -/
  | ldVxDt (x : Reg)
  /-- Fx0A `LD Vx, K` (R88) -/
  | ldVxK (x : Reg)
  /-- Fx15 `LD DT, Vx` (R89) -/
  | ldDtVx (x : Reg)
  /-- Fx18 `LD ST, Vx` (R90) -/
  | ldStVx (x : Reg)
  /-- Fx1E `ADD I, Vx` (R76) -/
  | addI (x : Reg)
  /-- Fx29 `LD F, Vx` (R77) -/
  | ldF (x : Reg)
  /-- Fx33 `LD B, Vx` (R78) -/
  | ldB (x : Reg)
  /-- Fx55 `LD [I], Vx` (R79) -/
  | ldMemVx (x : Reg)
  /-- Fx65 `LD Vx, [I]` (R80) -/
  | ldVxMem (x : Reg)
  deriving DecidableEq, Repr

end Sys2Proof
end

