-- ==== Sys2Proof/Config.lean ====
section
/-! DEFINITION. What is fixed for the machine (R3): the constants, the type of the parameters the spec makes arguments of the model,
and the free values, which have no body and so no value that a proof could use. The parameters' defaults stand in
Machine/Defaults.lean; the values a machine has stand in `State.params`. -/

namespace Sys2Proof

/-- R3: the parameters marked "parameter" in the table, arguments of the model (D1, D2, D3; log 1). -/
structure Params where
  /-- STACK_DEPTH: how many return addresses the stack holds. -/
  stackDepth : Nat
  /-- FONT_BASE: the address of the first font byte. -/
  fontBase   : Nat
  /-- FONT_GLYPHS: the 80 font bytes, glyph `d` at `5d` to `5d + 4`. -/
  fontGlyphs : List Byte
  deriving DecidableEq, Repr

/-- R3: MEM_SIZE, the number of addressable bytes. -/
abbrev Config.memSize : Nat := 4096

/-- R3: LOAD_OFFSET, where an image is placed and PC starts. -/
abbrev Config.loadOffset : Nat := 0x200

/-- R3: MAX_IMAGE = 4096 - 0x200, the longest image `load` accepts. -/
abbrev Config.maxImage : Nat := 3584

/-- R3: FONT_GLYPHS holds 16 glyphs of 5 bytes. -/
abbrev Config.fontSize : Nat := 80

/-- R3: TIMER_HZ. No rule depends on time (R120): read by nothing. -/
abbrev Config.timerHz : Nat := 60

/-- R3, D20: STEP_RATE_HZ, an OPEN parameter with no default. No rule depends on it (R120): read by nothing (log 13). -/
opaque Config.stepRateHz : Nat

/-- FREE VALUE. The RandomOracle (R3, R73, D22): the byte of the n-th draw, with no law relating draws (log 6). -/
opaque Config.randomByte : Nat → Byte

/-- FREE VALUE. The Input source when the host has fixed no key (R103, D27): the n-th snapshot, unconstrained (log 5). -/
opaque Config.freeKey : Nat → Option Key

end Sys2Proof
end

