-- ==== Sys2Proof/WellFormed.lean ====
section
/-! DEFINITION. What makes an instruction, a set of parameters and a program image well formed. An instruction's operands are
well formed by their types (R8: "malformed register indices are impossible by construction"), so its check refuses nothing; the
parameters and the image have checks of their own. -/

namespace Sys2Proof

/-- Every `Instr` is well formed: a register number is below 16, `kk` a byte, `nnn` 12 bits and `n` 4 bits by type (R8, R41). -/
def Instr.wellFormed (_ : Instr) : Bool := true

/-- R3: FONT_BASE + 80 <= 0x200. -/
def Params.fontBelowLoadOffset (p : Params) : Bool := p.fontBase + Config.fontSize ≤ Config.loadOffset

/-- R3, R20: the font is 16 glyphs of 5 bytes. -/
def Params.fontHas80Bytes (p : Params) : Bool := p.fontGlyphs.length = Config.fontSize

/-- R20: "the low nibble of every byte 0". -/
def Params.fontLowNibblesZero (p : Params) : Bool := p.fontGlyphs.all fun b => b.toNat % 16 = 0

/-- The parameters meet every bound the spec puts on them (R3, R20). -/
def Params.wellFormed (p : Params) : Bool :=
  p.fontBelowLoadOffset && p.fontHas80Bytes && p.fontLowNibblesZero

/-- R112, R113: an image that `load` accepts is at most 3584 bytes long. -/
def imageFits (image : List Byte) : Bool := image.length ≤ Config.maxImage

end Sys2Proof
end

