-- ==== Sys2Proof/Decode.lean ====
section
/-! DEFINITION. Decoding, total on every word and every byte string (R43), rejecting by name (R47), and the encoder written from the
same patterns (R41, R50). The rows of the opcode table as masks and patterns stand at the end (R43's last paragraph). -/

namespace Sys2Proof

/-! ## The fields of a word (R41) -/

/-- `w[15:12]`, the family. -/
def fieldO (w : Word) : Nat := field w 15 12

/-- `w[11:8]`, the register `Vx`. -/
def fieldX (w : Word) : Reg := Fin.ofNat 16 (field w 11 8)

/-- `w[7:4]`, the register `Vy`. -/
def fieldY (w : Word) : Reg := Fin.ofNat 16 (field w 7 4)

/-- `w[3:0]` as a number: the sub-opcode of families 5, 8 and 9. -/
def fieldZ (w : Word) : Nat := field w 3 0

/-- `w[3:0]` as the row count of Dxyn. -/
def fieldN (w : Word) : RowCount := BitVec.ofNat 4 (field w 3 0)

/-- `w[7:0]` as the byte immediate. -/
def fieldKK (w : Word) : Byte := BitVec.ofNat 8 (field w 7 0)

/-- `w[7:0]` as a number: the sub-opcode byte of families E and F. -/
def fieldSub (w : Word) : Nat := field w 7 0

/-- `w[11:0]` as the address immediate. -/
def fieldNNN (w : Word) : Addr12 := BitVec.ofNat 12 (field w 11 0)

/-! ## Decode (R43) -/

/-- What a word is: an instruction of the table, or an illegal word, rejected by name (R47). -/
inductive Decoded where
  | instr (i : Instr)
  | unknownInstruction (w : Word)
  deriving DecidableEq, Repr

/-- R43, family 8: the low nibble selects the operation. -/
def decodeFamily8 (w : Word) : Decoded :=
  match fieldZ w with
  | 0x0 => .instr (.ldReg (fieldX w) (fieldY w))
  | 0x1 => .instr (.orReg (fieldX w) (fieldY w))
  | 0x2 => .instr (.andReg (fieldX w) (fieldY w))
  | 0x3 => .instr (.xorReg (fieldX w) (fieldY w))
  | 0x4 => .instr (.addReg (fieldX w) (fieldY w))
  | 0x5 => .instr (.subReg (fieldX w) (fieldY w))
  | 0x6 => .instr (.shr (fieldX w) (fieldY w))
  | 0x7 => .instr (.subnReg (fieldX w) (fieldY w))
  | 0xE => .instr (.shl (fieldX w) (fieldY w))
  | _ => .unknownInstruction w

/-- R43, family E: the low byte selects the operation. -/
def decodeFamilyE (w : Word) : Decoded :=
  if fieldSub w = 0x9E then .instr (.skp (fieldX w))
  else if fieldSub w = 0xA1 then .instr (.sknp (fieldX w))
  else .unknownInstruction w

/-- R43, family F: the low byte selects the operation. -/
def decodeFamilyF (w : Word) : Decoded :=
  if fieldSub w = 0x07 then .instr (.ldVxDt (fieldX w))
  else if fieldSub w = 0x0A then .instr (.ldVxK (fieldX w))
  else if fieldSub w = 0x15 then .instr (.ldDtVx (fieldX w))
  else if fieldSub w = 0x18 then .instr (.ldStVx (fieldX w))
  else if fieldSub w = 0x1E then .instr (.addI (fieldX w))
  else if fieldSub w = 0x29 then .instr (.ldF (fieldX w))
  else if fieldSub w = 0x33 then .instr (.ldB (fieldX w))
  else if fieldSub w = 0x55 then .instr (.ldMemVx (fieldX w))
  else if fieldSub w = 0x65 then .instr (.ldVxMem (fieldX w))
  else .unknownInstruction w

/-- R43: the top nibble selects the family. Families 5 and 9 also require a low nibble of 0 (C5, D14); family 0 holds nothing but the
two exact words, which `decodeWord` has taken (R47). -/
def decodeFamily (w : Word) : Decoded :=
  match fieldO w with
  | 0x1 => .instr (.jp (fieldNNN w))
  | 0x2 => .instr (.call (fieldNNN w))
  | 0x3 => .instr (.seByte (fieldX w) (fieldKK w))
  | 0x4 => .instr (.sneByte (fieldX w) (fieldKK w))
  | 0x5 => if fieldZ w = 0 then .instr (.seReg (fieldX w) (fieldY w)) else .unknownInstruction w
  | 0x6 => .instr (.ldByte (fieldX w) (fieldKK w))
  | 0x7 => .instr (.addByte (fieldX w) (fieldKK w))
  | 0x8 => decodeFamily8 w
  | 0x9 => if fieldZ w = 0 then .instr (.sneReg (fieldX w) (fieldY w)) else .unknownInstruction w
  | 0xA => .instr (.ldI (fieldNNN w))
  | 0xB => .instr (.jpV0 (fieldNNN w))
  | 0xC => .instr (.rnd (fieldX w) (fieldKK w))
  | 0xD => .instr (.drw (fieldX w) (fieldY w) (fieldN w))
  | 0xE => decodeFamilyE w
  | 0xF => decodeFamilyF w
  | _ => .unknownInstruction w

/-- R43: "full-word exact match first", then the families. -/
def decodeWord (w : Word) : Decoded :=
  if w = 0x00E0#16 then .instr .cls
  else if w = 0x00EE#16 then .instr .ret
  else decodeFamily w

/-- Decoding the front of a byte string: the word in its first two bytes, big-endian (R29, R41), and the bytes left. None where fewer
than two bytes stand there. -/
def decodeBytes : List Byte → Option (Decoded × List Byte)
  | hi :: lo :: rest => some (decodeWord (wordOfBytes hi lo), rest)
  | _ => none

/-! ## Encode (R41, R50) -/

/-- Format A: `oooo nnnn nnnn nnnn`. -/
def encodeA (o : Nat) (nnn : Addr12) : Word := BitVec.ofNat 16 (o * 4096 + nnn.toNat)

/-- Format XK: `oooo xxxx kkkk kkkk`. -/
def encodeXK (o : Nat) (x : Reg) (kk : Byte) : Word := BitVec.ofNat 16 (o * 4096 + x.val * 256 + kk.toNat)

/-- Formats XY and XYN: `oooo xxxx yyyy zzzz`. -/
def encodeXY (o : Nat) (x y : Reg) (z : Nat) : Word := BitVec.ofNat 16 (o * 4096 + x.val * 256 + y.val * 16 + z)

/-- Format X: `oooo xxxx kkkk kkkk` with a fixed low byte. -/
def encodeX (o : Nat) (x : Reg) (sub : Nat) : Word := BitVec.ofNat 16 (o * 4096 + x.val * 256 + sub)

/-- The word of an instruction, from its pattern (R41, R50). -/
def encode : Instr → Word
  | .cls => 0x00E0#16
  | .ret => 0x00EE#16
  | .jp nnn => encodeA 0x1 nnn
  | .call nnn => encodeA 0x2 nnn
  | .seByte x kk => encodeXK 0x3 x kk
  | .sneByte x kk => encodeXK 0x4 x kk
  | .seReg x y => encodeXY 0x5 x y 0x0
  | .ldByte x kk => encodeXK 0x6 x kk
  | .addByte x kk => encodeXK 0x7 x kk
  | .ldReg x y => encodeXY 0x8 x y 0x0
  | .orReg x y => encodeXY 0x8 x y 0x1
  | .andReg x y => encodeXY 0x8 x y 0x2
  | .xorReg x y => encodeXY 0x8 x y 0x3
  | .addReg x y => encodeXY 0x8 x y 0x4
  | .subReg x y => encodeXY 0x8 x y 0x5
  | .shr x y => encodeXY 0x8 x y 0x6
  | .subnReg x y => encodeXY 0x8 x y 0x7
  | .shl x y => encodeXY 0x8 x y 0xE
  | .sneReg x y => encodeXY 0x9 x y 0x0
  | .ldI nnn => encodeA 0xA nnn
  | .jpV0 nnn => encodeA 0xB nnn
  | .rnd x kk => encodeXK 0xC x kk
  | .drw x y n => encodeXY 0xD x y n.toNat
  | .skp x => encodeX 0xE x 0x9E
  | .sknp x => encodeX 0xE x 0xA1
  | .ldVxDt x => encodeX 0xF x 0x07
  | .ldVxK x => encodeX 0xF x 0x0A
  | .ldDtVx x => encodeX 0xF x 0x15
  | .ldStVx x => encodeX 0xF x 0x18
  | .addI x => encodeX 0xF x 0x1E
  | .ldF x => encodeX 0xF x 0x29
  | .ldB x => encodeX 0xF x 0x33
  | .ldMemVx x => encodeX 0xF x 0x55
  | .ldVxMem x => encodeX 0xF x 0x65

/-- The two bytes of an instruction as they stand in memory, the high byte first (R29, R30). -/
def encodeBytes (i : Instr) : List Byte := [highByte (encode i), lowByte (encode i)]

/-! ## The host's question about a table word -/

/-- The instruction this decoder reads from the word `w` numbered as the opcode table numbers it: bits 15 to 0 of the one 16-bit word,
laid out big-endian (R29). Bits at and above `nbits` are 0. -/
def decodeTableWord (nbits w : Nat) : Option Instr :=
  match decodeBytes [highByte (BitVec.ofNat 16 (w % 2 ^ nbits)), lowByte (BitVec.ofNat 16 (w % 2 ^ nbits))] with
  | some (.instr i, _) => some i
  | _ => none

/-! ## The rows of the opcode table -/

/-- A row of spec/opcode_table.json: a word `w` matches it when `(w AND mask) == pattern` (R43). -/
structure OpRow where
  mnemonic : String
  mask     : Nat
  pattern  : Nat
  deriving DecidableEq, Repr

/-- The row of each instruction, as the table has it. -/
def Instr.row : Instr → OpRow
  | .cls => ⟨"CLS", 0xFFFF, 0x00E0⟩
  | .ret => ⟨"RET", 0xFFFF, 0x00EE⟩
  | .jp _ => ⟨"JP_addr", 0xF000, 0x1000⟩
  | .call _ => ⟨"CALL_addr", 0xF000, 0x2000⟩
  | .seByte _ _ => ⟨"SE_Vx__byte", 0xF000, 0x3000⟩
  | .sneByte _ _ => ⟨"SNE_Vx__byte", 0xF000, 0x4000⟩
  | .seReg _ _ => ⟨"SE_Vx__Vy", 0xF00F, 0x5000⟩
  | .ldByte _ _ => ⟨"LD_Vx__byte", 0xF000, 0x6000⟩
  | .addByte _ _ => ⟨"ADD_Vx__byte", 0xF000, 0x7000⟩
  | .ldReg _ _ => ⟨"LD_Vx__Vy", 0xF00F, 0x8000⟩
  | .orReg _ _ => ⟨"OR_Vx__Vy", 0xF00F, 0x8001⟩
  | .andReg _ _ => ⟨"AND_Vx__Vy", 0xF00F, 0x8002⟩
  | .xorReg _ _ => ⟨"XOR_Vx__Vy", 0xF00F, 0x8003⟩
  | .addReg _ _ => ⟨"ADD_Vx__Vy", 0xF00F, 0x8004⟩
  | .subReg _ _ => ⟨"SUB_Vx__Vy", 0xF00F, 0x8005⟩
  | .shr _ _ => ⟨"SHR_Vx", 0xF00F, 0x8006⟩
  | .subnReg _ _ => ⟨"SUBN_Vx__Vy", 0xF00F, 0x8007⟩
  | .shl _ _ => ⟨"SHL_Vx", 0xF00F, 0x800E⟩
  | .sneReg _ _ => ⟨"SNE_Vx__Vy", 0xF00F, 0x9000⟩
  | .ldI _ => ⟨"LD_I__addr", 0xF000, 0xA000⟩
  | .jpV0 _ => ⟨"JP_V0__addr", 0xF000, 0xB000⟩
  | .rnd _ _ => ⟨"RND_Vx__byte", 0xF000, 0xC000⟩
  | .drw _ _ _ => ⟨"DRW_Vx__Vy__nibble", 0xF000, 0xD000⟩
  | .skp _ => ⟨"SKP_Vx", 0xF0FF, 0xE09E⟩
  | .sknp _ => ⟨"SKNP_Vx", 0xF0FF, 0xE0A1⟩
  | .ldVxDt _ => ⟨"LD_Vx__DT", 0xF0FF, 0xF007⟩
  | .ldVxK _ => ⟨"LD_Vx__K", 0xF0FF, 0xF00A⟩
  | .ldDtVx _ => ⟨"LD_DT__Vx", 0xF0FF, 0xF015⟩
  | .ldStVx _ => ⟨"LD_ST__Vx", 0xF0FF, 0xF018⟩
  | .addI _ => ⟨"ADD_I__Vx", 0xF0FF, 0xF01E⟩
  | .ldF _ => ⟨"LD_F__Vx", 0xF0FF, 0xF029⟩
  | .ldB _ => ⟨"LD_B__Vx", 0xF0FF, 0xF033⟩
  | .ldMemVx _ => ⟨"LD__I___Vx", 0xF0FF, 0xF055⟩
  | .ldVxMem _ => ⟨"LD_Vx___I", 0xF0FF, 0xF065⟩

/-- The rows up to family 7 and family 8, as instructions with operands 0. -/
def rowInstrsLow : List Instr :=
  [.cls, .ret, .jp 0, .call 0, .seByte 0 0, .sneByte 0 0, .seReg 0 0, .ldByte 0 0, .addByte 0 0, .ldReg 0 0,
    .orReg 0 0, .andReg 0 0, .xorReg 0 0, .addReg 0 0, .subReg 0 0, .shr 0 0, .subnReg 0 0, .shl 0 0]

/-- The rows from family 9 on, as instructions with operands 0. -/
def rowInstrsHigh : List Instr :=
  [.sneReg 0 0, .ldI 0, .jpV0 0, .rnd 0 0, .drw 0 0 0, .skp 0, .sknp 0, .ldVxDt 0, .ldVxK 0, .ldDtVx 0,
    .ldStVx 0, .addI 0, .ldF 0, .ldB 0, .ldMemVx 0, .ldVxMem 0]

/-- One instruction for each row: the table's rows in its order (R52: 34 of them). -/
def rowInstrs : List Instr := rowInstrsLow ++ rowInstrsHigh

/-- The 34 rows of the opcode table. -/
def opcodeRows : List OpRow := rowInstrs.map Instr.row

/-- R43: the row matches the word. -/
def OpRow.matchesWord (r : OpRow) (w : Word) : Bool := w.toNat &&& r.mask == r.pattern

end Sys2Proof
end

