-- ==== Sys2Proof/Machine/Defaults.lean ====
section
/-! DEFINITION. The defaults of the parameters (R3, R20): what a machine has unless another value is asked for. -/

namespace Sys2Proof.Machine

/-- R3, D1: STACK_DEPTH, default 16. -/
def defaultStackDepth : Nat := 16

/-- R3, D2: FONT_BASE, default 0x000. -/
def defaultFontBase : Nat := 0x000

/-- R20: FONT_GLYPHS, default the conventional table. PRESUMED by the spec itself ("from general knowledge, not in source", D3, G2;
log 2). -/
def defaultFontGlyphs : List Byte :=
  [0xF0, 0x90, 0x90, 0x90, 0xF0] ++ [0x20, 0x60, 0x20, 0x20, 0x70] ++
  [0xF0, 0x10, 0xF0, 0x80, 0xF0] ++ [0xF0, 0x10, 0xF0, 0x10, 0xF0] ++
  [0x90, 0x90, 0xF0, 0x10, 0x10] ++ [0xF0, 0x80, 0xF0, 0x10, 0xF0] ++
  [0xF0, 0x80, 0xF0, 0x90, 0xF0] ++ [0xF0, 0x10, 0x20, 0x40, 0x40] ++
  [0xF0, 0x90, 0xF0, 0x90, 0xF0] ++ [0xF0, 0x90, 0xF0, 0x10, 0xF0] ++
  [0xF0, 0x90, 0xF0, 0x90, 0x90] ++ [0xE0, 0x90, 0xE0, 0x90, 0xE0] ++
  [0xF0, 0x80, 0x80, 0x80, 0xF0] ++ [0xE0, 0x90, 0x90, 0x90, 0xE0] ++
  [0xF0, 0x80, 0xF0, 0x80, 0xF0] ++ [0xF0, 0x80, 0xF0, 0x80, 0x80]

/-- R3: the parameters at their defaults. -/
def defaultParams : Params :=
  { stackDepth := defaultStackDepth, fontBase := defaultFontBase, fontGlyphs := defaultFontGlyphs }

end Sys2Proof.Machine
end

