-- ==== Sys2Proof/Machine/State.lean ====
section
/-! DEFINITION. The state of the machine, as plain data: every piece of state the spec gives the core (R7 to R17), the parameters it
makes arguments of the model (R3), and the model's own bookkeeping of the free inputs (R21). The reset state (R19, R109), and the
reasons a step can stop. INVENTORY.md's "## State" lists every field with its rule and its reset value. -/

namespace Sys2Proof.Machine

/-- The fatal faults (R91), each with the PC of the faulting instruction: what the fault record holds (R17). The step that raises one
takes it: it answers a next state whose only change is the record (R94). `step` and `tick60Hz` answer `Host.Outcome.fault f` from a
state whose record holds `f`: the spec's "refused", no transition (R94; log 3). Safe: a faulted machine takes no step. -/
inductive Fault where
  /-- Raised by 2nnn when SP = STACK_DEPTH (R55, R91). Safe. -/
  | stackOverflow (pc : Word)
  /-- Raised by 00EE when SP = 0 (R53, R91). Safe. -/
  | stackUnderflow (pc : Word)
  /-- Raised by the fetch, Dxyn, Fx33, Fx55 and Fx65 when an address of the access is above 4095; `addr` is the first such address
  (R28, R29, R32, R91; log 4). Safe. -/
  | outOfBoundsMemoryAccess (pc : Word) (addr : Nat)
  deriving DecidableEq, Repr

/-- The reasons a step has no meaning in this model. -/
inductive Refusal where
  /-- Raised by an arm of `exec` whose instruction has no meaning yet: no arm is so. Safe. -/
  | notModelled (mnemonic : String)
  deriving DecidableEq, Repr

/-- What the Input source answers when an instruction reads the key (R103, D27; log 5). -/
inductive KeyInput where
  /-- Every reading is a fresh unconstrained snapshot, `Config.freeKey` of the number of readings so far. -/
  | unconstrained
  /-- The host holds this snapshot until it sets another: no key, or one key code. -/
  | fixed (k : Option Key)
  deriving DecidableEq, Repr

/-- Memory: (address, byte) pairs. Its canonical form is `Memory.wf` in Machine/Ops.lean; an address that is not listed reads as its
reset value (R19), `resetByte` there. -/
abbrev Memory := List Host.Cell

/-- The framebuffer: 32 rows of 64 one-bit pixels; FB[c][r] is bit `c` of row `r` (R15). -/
abbrev FrameBuffer := Vector (BitVec 64) 32

structure State where
  /-- STACK_DEPTH, FONT_BASE, FONT_GLYPHS (R3): no operation changes them. -/
  params      : Params
  /-- The memory array (R7). -/
  mem         : Memory
  /-- V0 to VF (R8, R9). -/
  v           : Vector Byte 16
  /-- The address register I (R10). -/
  i           : Word
  /-- The program counter (R11). -/
  pc          : Word
  /-- The return-address stack, dead entries included: `params.stackDepth` entries (R12). -/
  stack       : List Word
  /-- The stack pointer: the number of live entries (R13). -/
  sp          : Nat
  /-- The delay timer (R14). -/
  dt          : Byte
  /-- The sound timer (R14). -/
  st          : Byte
  /-- The framebuffer (R15). -/
  fb          : FrameBuffer
  /-- The last request made of the Audio sink (R16). -/
  toneOn      : Bool
  /-- The fault record (R17). -/
  fault       : Option Fault
  /-- The model's own: what the Input source answers (R103; log 5). -/
  keyInput    : KeyInput
  /-- The model's own: how many key snapshots have been taken (log 5). -/
  keyReads    : Nat
  /-- The model's own: how many random bytes have been drawn (log 6). -/
  randomDraws : Nat
  deriving DecidableEq, Repr

/-- The newly constructed core with parameters `p` (R19, R109): memory lists nothing, so every byte reads as its reset value. The last
three fields are the model's own (DESIGN CHOICE, logs 5 and 6). -/
def State.constructed (p : Params) : State where
  params      := p
  mem         := []
  v           := Vector.replicate 16 0
  i           := 0
  pc          := 0x200
  stack       := List.replicate p.stackDepth 0
  sp          := 0
  dt          := 0
  st          := 0
  fb          := Vector.replicate 32 0
  toneOn      := false
  fault       := none
  keyInput    := .unconstrained
  keyReads    := 0
  randomDraws := 0

/-- The machine right after reset, with the default parameters (R3, R19, R109). -/
def State.reset : State := State.constructed defaultParams

end Sys2Proof.Machine
end

