-- ==== Sys2Proof/Machine/Ops.lean ====
section
/-! DEFINITION. The named operations over memory, registers, stack, framebuffer and inputs, the fetch, and taking a fatal fault. Every
meaning reads and writes the state through these. -/

namespace Sys2Proof.Machine

/-- What `exec` and `step` answer. -/
abbrev Result := Host.Outcome State Fault Refusal

/-! ## Memory (R7, R19, R25 to R30) -/

/-- R19: the byte at `a` after `reset()`: the font at FONT_BASE, every other byte 0. It is what an address that memory does not list
reads as. -/
def resetByte (p : Params) (a : Nat) : Byte :=
  if p.fontBase ≤ a ∧ a < p.fontBase + 80 then p.fontGlyphs.getD (a - p.fontBase) 0 else 0

/-- The canonical form of memory: addresses below 4096, strictly rising, and no entry equal to what an unlisted address reads as. -/
abbrev Memory.wf (p : Params) (m : Memory) : Prop :=
  m.Pairwise (fun c d => c.1 < d.1) ∧ ∀ c ∈ m, c.1 < Config.memSize ∧ c.2 ≠ resetByte p c.1

/-- R27: the byte at an address. -/
def Memory.read (p : Params) : Memory → Nat → Byte
  | [], a => resetByte p a
  | c :: rest, a => if a = c.1 then c.2 else Memory.read p rest a

/-- Lists the byte `b` at `a`, in address order. -/
def Memory.insert (a : Nat) (b : Byte) : Memory → Memory
  | [] => [(a, b)]
  | c :: rest =>
    if a < c.1 then (a, b) :: c :: rest
    else if a = c.1 then (a, b) :: rest
    else c :: Memory.insert a b rest

/-- Takes the entry of `a` out, if there is one. -/
def Memory.erase (a : Nat) : Memory → Memory
  | [] => []
  | c :: rest => if a = c.1 then rest else c :: Memory.erase a rest

/-- R27: sets the byte at an address, keeping the canonical form. -/
def Memory.write (p : Params) (m : Memory) (a : Nat) (b : Byte) : Memory :=
  if b = resetByte p a then m.erase a else m.insert a b

/-- Byte writes at ascending addresses from `a` (R27). -/
def Memory.writeBytes (p : Params) (m : Memory) (a : Nat) : List Byte → Memory
  | [] => m
  | b :: rest => Memory.writeBytes p (m.write p a b) (a + 1) rest

/-- R27 `MemRead(a, 1)`, for an address that has been checked. -/
def State.readByte (s : State) (a : Nat) : Byte := s.mem.read s.params a

/-- The `n` bytes from `a`, in ascending order (R27). -/
def State.readBytes (s : State) (a n : Nat) : List Byte := (List.range n).map fun j => s.readByte (a + j)

/-- R27 `MemWrite` at `a`, `a + 1`, ..., for a range that has been checked. -/
def State.writeBytes (s : State) (a : Nat) (bs : List Byte) : State :=
  { s with mem := s.mem.writeBytes s.params a bs }

/-- R4 `InRange(a, n)`. -/
abbrev inRange (a n : Nat) : Prop := n = 0 ∨ a + n - 1 ≤ 4095

/-- The first address above 4095 of a range that starts at `a` and is not in range (R32, R91). -/
def firstOutOfRange (a : Nat) : Nat := max a 4096

/-! ## Registers (R8 to R14) -/

/-- `V[x]`. -/
def State.getV (s : State) (x : Reg) : Byte := s.v[x]

/-- `V[x] <- b`. -/
def State.setV (s : State) (x : Reg) (b : Byte) : State := { s with v := s.v.set x b }

/-- R46: the result to `V[x]`, then the flag to VF, last: when `x` is VF, VF ends holding the flag. -/
def State.setVThenFlag (s : State) (x : Reg) (result flag : Byte) : State :=
  (s.setV x result).setV Reg.vf flag

/-- `I <- a`. -/
def State.setI (s : State) (a : Word) : State := { s with i := a }

/-- `PC <- target`. -/
def State.setPc (s : State) (target : Word) : State := { s with pc := target }

/-- `DT <- b`. -/
def State.setDt (s : State) (b : Byte) : State := { s with dt := b }

/-- `ST <- b`. -/
def State.setSt (s : State) (b : Byte) : State := { s with st := b }

/-- A skip: a further 2 on top of the pre-advance when the condition holds (R45, R49). -/
def State.skipIf (s : State) (c : Prop) [Decidable c] : State :=
  if c then s.setPc (s.pc + 2) else s

/-! ## The return-address stack (R12, R13) -/

/-- `stack[j]`. -/
def State.stackEntry (s : State) (j : Nat) : Word := s.stack.getD j 0

/-- R13: a push stores at `stack[SP]` and then increments SP. -/
def State.push (s : State) (a : Word) : State := { s with stack := s.stack.set s.sp a, sp := s.sp + 1 }

/-- R13: a pop decrements SP and then reads `stack[SP]`; the entry stays as it was (R12). RET reads it into PC (R53). -/
def State.popToPc (s : State) : State := { s with sp := s.sp - 1, pc := s.stackEntry (s.sp - 1) }

/-! ## Framebuffer (R15) -/

/-- `FB[c][r]`. -/
def FrameBuffer.pixel (fb : FrameBuffer) (c : Fin 64) (r : Fin 32) : Bool := fb[r].getLsbD c

/-- `FB[c][r] <- FB[c][r] XOR 1`. -/
def FrameBuffer.toggle (fb : FrameBuffer) (c : Fin 64) (r : Fin 32) : FrameBuffer :=
  fb.set r (fb[r] ^^^ BitVec.twoPow 64 c)

/-- Every pixel 0 (R81). -/
def FrameBuffer.clear : FrameBuffer := Vector.replicate 32 0

/-- The framebuffer becomes `fb`. -/
def State.setFb (s : State) (fb : FrameBuffer) : State := { s with fb := fb }

/-! ## Free inputs (R21) -/

/-- R103 `Key()`: the snapshot the next reading takes. -/
def State.keySnapshot (s : State) : Option Key :=
  match s.keyInput with
  | .fixed k => k
  | .unconstrained => Config.freeKey s.keyReads

/-- One snapshot has been taken: the next unconstrained one is another (D27). -/
def State.noteKeyRead (s : State) : State := { s with keyReads := s.keyReads + 1 }

/-- R4 `Random()`: the byte the next draw gives. -/
def State.randomByte (s : State) : Byte := Config.randomByte s.randomDraws

/-- One byte has been drawn: the next draw is another (D22). -/
def State.noteDraw (s : State) : State := { s with randomDraws := s.randomDraws + 1 }

/-! ## Taking a fatal fault (R91, R94, R101) -/

/-- R94: PC keeps the fetch address, the record takes the fault, and nothing else changes. There is no handler, no saved state and no
return (R101): only `reset()` and a successful `load` leave the faulted state. -/
def State.takeFault (s : State) (fetchPC : Word) (f : Word → Fault) : State :=
  { s with pc := fetchPC, fault := some (f fetchPC) }

/-- A fatal fault raised while an instruction executes: PC already holds the fetch address plus 2 (R45), and the pre-advance is not
kept (R94). -/
def State.raiseInExec (s : State) (f : Word → Fault) : State := s.takeFault (s.pc - 2) f

/-- R32: an instruction that accesses `n` bytes from I checks the whole range before its first access; `done` is the state it leaves
when the range is in memory. -/
def State.withRange (s : State) (n : Nat) (done : State) : State :=
  if inRange s.i.toNat n then done
  else s.raiseInExec fun pc => .outOfBoundsMemoryAccess pc (firstOutOfRange s.i.toNat)

/-! ## Fetch and pre-advance (R29, R45) -/

/-- R29 `Fetch16(PC)`: the big-endian word at PC, or none where PC + 1 is above 4095. -/
def State.fetchWord (s : State) : Option Word :=
  if s.pc.toNat + 1 > 4095 then none
  else some (wordOfBytes (s.readByte s.pc.toNat) (s.readByte (s.pc.toNat + 1)))

/-- R45: PC <- PC + 2, 16 bits. -/
def State.preAdvance (s : State) : State := { s with pc := s.pc + 2 }

/-- R29, R91, R94: the fetch fault, before the pre-advance. The record holds PC, the value R29's `raise` carries, as its fetch address,
and the first address above 4095 of PC, PC + 1 as its info, as R91's table has it: the two differ at PC = 4095 alone (log 4). -/
def State.takeFetchFault (s : State) : State :=
  s.takeFault s.pc fun pc => .outOfBoundsMemoryAccess pc (firstOutOfRange s.pc.toNat)

/-- The word `w` stored where the next step fetches: at PC, after moving PC to 0x200 if no word can be fetched at it and clearing the
fault record if it holds a fault (log 10). -/
def State.placeWord (s : State) (w : Word) : State :=
  let pc : Word := if s.pc.toNat + 1 > 4095 then 0x200 else s.pc
  { s with pc := pc, fault := none }.writeBytes pc.toNat [highByte w, lowByte w]

end Sys2Proof.Machine
end

