-- ==== Sys2Proof/Machine/Flags.lean ====
section
/-! DEFINITION. Every value that is written to VF as a flag (R9, R74): computed exactly on naturals or integers, 0 or 1. -/

namespace Sys2Proof.Machine

/-- A flag as the byte VF holds. -/
def flagByte (c : Prop) [Decidable c] : Byte := if c then 1 else 0

/-- R68: the carry of 8xy4, 1 if the exact sum is above 255. -/
def carryFlag (a b : Byte) : Byte := flagByte (a.toNat + b.toNat > 255)

/-- R69, R71: NOT borrow of `a - b`, 0 if the exact difference is negative. -/
def notBorrowFlag (a b : Byte) : Byte := flagByte (¬ (a.toNat : Int) - (b.toNat : Int) < 0)

/-- R70: the bit a right shift shifts out. -/
def shiftedOutLow (a : Byte) : Byte := a &&& 1

/-- R72: the bit a left shift shifts out, as 0 or 1. -/
def shiftedOutHigh (a : Byte) : Byte := (a >>> 7) &&& 1

/-- R76: 1 if the exact sum of I and `V[x]` is above 0xFFF. -/
def indexOverflowFlag (i : Word) (a : Byte) : Byte := flagByte (i.toNat + a.toNat > 0xFFF)

/-- R83: 1 if a set pixel was cleared. -/
def collisionFlag (collision : Bool) : Byte := flagByte (collision = true)

end Sys2Proof.Machine
end

