-- ==== Sys2Proof/Machine/Operands.lean ====
section
/-! DEFINITION. Every value an instruction computes from its operands: widened immediates, 8-bit results, addresses, digits, key
comparisons, the register ranges of Fx55 and Fx65, and the bits of a sprite row. -/

namespace Sys2Proof.Machine

/-- R42: `zext_16(nnn)`. -/
def zextAddr (nnn : Addr12) : Word := nnn.setWidth 16

/-- R60: `zext_16(nnn) + V[0]`, not reduced to 12 bits (D9). -/
def offsetTarget (nnn : Addr12) (v0 : Byte) : Word := BitVec.ofNat 16 (nnn.toNat + v0.toNat)

/-- R61: the exact sum modulo 256. -/
def sumByte (a b : Byte) : Byte := BitVec.ofNat 8 (a.toNat + b.toNat)

/-- R61: the exact difference modulo 256. -/
def diffByte (a b : Byte) : Byte := BitVec.ofInt 8 ((a.toNat : Int) - (b.toNat : Int))

/-- R70: `a >> 1`. -/
def shiftRight1 (a : Byte) : Byte := a >>> 1

/-- R72: `(a << 1) mod 256`. -/
def shiftLeft1 (a : Byte) : Byte := a <<< 1

/-- R76: `(I + V[x]) mod 0x1000`. -/
def indexSum (i : Word) (a : Byte) : Word := BitVec.ofNat 16 ((i.toNat + a.toNat) % 0x1000)

/-- R77: `FONT_BASE + V[x] * 5`, `V[x]` not masked (D12). -/
def glyphAddress (p : Params) (a : Byte) : Word := BitVec.ofNat 16 (p.fontBase + a.toNat * 5)

/-- R78: the three decimal digits of a byte, most significant first. -/
def bcdDigits (a : Byte) : List Byte :=
  [BitVec.ofNat 8 (a.toNat / 100), BitVec.ofNat 8 (a.toNat / 10 % 10), BitVec.ofNat 8 (a.toNat % 10)]

/-- R79: V[0] to V[x] inclusive, ascending. -/
def State.regsUpTo (s : State) (x : Reg) : List Byte := (List.range (x.val + 1)).map fun j => s.getV (Fin.ofNat 16 j)

/-- R80: V[j] <- mem[a + j] for j in 0 .. x. -/
def State.loadRegs (s : State) (x : Reg) (a : Nat) : State :=
  { s with v := Vector.ofFn fun j => if j ≤ x then s.readByte (a + j.val) else s.getV j }

/-- R85, R86: a key is pressed and its code equals the byte. No key equals nothing (D30). -/
abbrev keyEquals (k : Option Key) (a : Byte) : Prop := k.any (fun c => c.setWidth 8 == a) = true

/-- R82: bit `7 - c` of a sprite row: column 0 is the most significant bit. -/
def spriteBit (row : Byte) (c : Nat) : Bool := row.getLsbD (7 - c)

end Sys2Proof.Machine
end

