-- ==== Sys2Proof/Machine/Alu.lean ====
section
/-! DEFINITION. Register load, arithmetic and logic (41_alu.md). Operands are read before any write and VF is written last (R46). -/

namespace Sys2Proof.Machine

/-- 6xkk (R62). -/
def execLdByte (x : Reg) (kk : Byte) (s : State) : Result := .next (s.setV x kk)

/-- 7xkk (R63): no flag. -/
def execAddByte (x : Reg) (kk : Byte) (s : State) : Result := .next (s.setV x (sumByte (s.getV x) kk))

/-- 8xy0 (R64). -/
def execLdReg (x y : Reg) (s : State) : Result := .next (s.setV x (s.getV y))

/-- 8xy1 (R65). -/
def execOrReg (x y : Reg) (s : State) : Result := .next (s.setV x (s.getV x ||| s.getV y))

/-- 8xy2 (R66). -/
def execAndReg (x y : Reg) (s : State) : Result := .next (s.setV x (s.getV x &&& s.getV y))

/-- 8xy3 (R67). -/
def execXorReg (x y : Reg) (s : State) : Result := .next (s.setV x (s.getV x ^^^ s.getV y))

/-- 8xy4 (R68). -/
def execAddReg (x y : Reg) (s : State) : Result :=
  .next (s.setVThenFlag x (sumByte (s.getV x) (s.getV y)) (carryFlag (s.getV x) (s.getV y)))

/-- 8xy5 (R69): `V[x] - V[y]`. -/
def execSubReg (x y : Reg) (s : State) : Result :=
  .next (s.setVThenFlag x (diffByte (s.getV x) (s.getV y)) (notBorrowFlag (s.getV x) (s.getV y)))

/-- 8xy6 (R70): the y field is ignored (R44). -/
def execShr (x : Reg) (s : State) : Result :=
  .next (s.setVThenFlag x (shiftRight1 (s.getV x)) (shiftedOutLow (s.getV x)))

/-- 8xy7 (R71): `V[y] - V[x]`. -/
def execSubnReg (x y : Reg) (s : State) : Result :=
  .next (s.setVThenFlag x (diffByte (s.getV y) (s.getV x)) (notBorrowFlag (s.getV y) (s.getV x)))

/-- 8xyE (R72): the y field is ignored (R44). -/
def execShl (x : Reg) (s : State) : Result :=
  .next (s.setVThenFlag x (shiftLeft1 (s.getV x)) (shiftedOutHigh (s.getV x)))

/-- Cxkk (R73): a fresh draw, a free value (log 6). -/
def execRnd (x : Reg) (kk : Byte) (s : State) : Result := .next (s.noteDraw.setV x (s.randomByte &&& kk))

end Sys2Proof.Machine
end

