-- ==== Sys2Proof/Machine/Control.lean ====
section
/-! DEFINITION. The control-flow instructions (40_control_flow.md). A meaning runs on the state after the pre-advance: `s.pc` is
`old_PC`, the fetch address plus 2 (R45, R118). -/

namespace Sys2Proof.Machine

/-- 00EE (R53). -/
def execRet (s : State) : Result :=
  .next (if s.sp = 0 then s.raiseInExec .stackUnderflow else s.popToPc)

/-- 1nnn (R54). -/
def execJp (nnn : Addr12) (s : State) : Result := .next (s.setPc (zextAddr nnn))

/-- 2nnn (R55): the address pushed is the pre-advanced PC. A pointer above the depth, which no operation reaches, counts as full
(log 12). -/
def execCall (nnn : Addr12) (s : State) : Result :=
  .next (if s.sp < s.params.stackDepth then (s.push s.pc).setPc (zextAddr nnn) else s.raiseInExec .stackOverflow)

/-- 3xkk (R56). -/
def execSeByte (x : Reg) (kk : Byte) (s : State) : Result := .next (s.skipIf (s.getV x = kk))

/-- 4xkk (R57). -/
def execSneByte (x : Reg) (kk : Byte) (s : State) : Result := .next (s.skipIf (s.getV x ≠ kk))

/-- 5xy0 (R58). -/
def execSeReg (x y : Reg) (s : State) : Result := .next (s.skipIf (s.getV x = s.getV y))

/-- 9xy0 (R59). -/
def execSneReg (x y : Reg) (s : State) : Result := .next (s.skipIf (s.getV x ≠ s.getV y))

/-- Bnnn (R60): the offset register is V0. -/
def execJpV0 (nnn : Addr12) (s : State) : Result := .next (s.setPc (offsetTarget nnn (s.getV 0)))

end Sys2Proof.Machine
end

