-- ==== Sys2Proof/Machine/Display.lean ====
section
/-! DEFINITION. The display instructions and the XOR-blit with its collision detector (43_display.md, R102). -/

namespace Sys2Proof.Machine

/-- R82, the body for one column: a set bit toggles its pixel, and a set pixel it clears is a collision. -/
def drawColumn (row : Byte) (x0 : Nat) (py : Fin 32) (acc : FrameBuffer × Bool) (c : Nat) : FrameBuffer × Bool :=
  if spriteBit row c then
    (acc.1.toggle (Fin.ofNat 64 (x0 + c)) py, acc.2 || acc.1.pixel (Fin.ofNat 64 (x0 + c)) py)
  else acc

/-- R82: one sprite row, its 8 columns from left to right. -/
def drawRow (row : Byte) (x0 : Nat) (py : Fin 32) (acc : FrameBuffer × Bool) : FrameBuffer × Bool :=
  (List.range 8).foldl (drawColumn row x0 py) acc

/-- R82: the sprite rows from top to bottom, the first of them at screen row `y mod 32`. -/
def drawRows (x0 : Nat) : Nat → List Byte → FrameBuffer × Bool → FrameBuffer × Bool
  | _, [], acc => acc
  | y, row :: rest, acc => drawRows x0 (y + 1) rest (drawRow row x0 (Fin.ofNat 32 y) acc)

/-- R82 `Blit(rows, x0, y0)`: the framebuffer it leaves and the collision it returns. -/
def blit (rows : List Byte) (x0 y0 : Byte) (fb : FrameBuffer) : FrameBuffer × Bool :=
  drawRows x0.toNat y0.toNat rows (fb, false)

/-- 00E0 (R81). -/
def execCls (s : State) : Result := .next (s.setFb FrameBuffer.clear)

/-- R83: the sprite `rows` drawn at `(V[x], V[y])`, then VF. -/
def State.drawSprite (s : State) (x y : Reg) (rows : List Byte) : State :=
  let drawn := blit rows (s.getV x) (s.getV y) s.fb
  (s.setFb drawn.1).setV Reg.vf (collisionFlag drawn.2)

/-- Dxyn (R83). With `n` = 0 no byte is read and nothing is drawn (D13). -/
def execDrw (x y : Reg) (n : RowCount) (s : State) : Result :=
  .next (s.withRange n.toNat (s.drawSprite x y (s.readBytes s.i.toNat n.toNat)))

end Sys2Proof.Machine
end

