-- ==== Sys2Proof/Machine/Index.lean ====
section
/-! DEFINITION. The index register and memory instructions (42_index_memory.md). The last three leave I as it was (D11). -/

namespace Sys2Proof.Machine

/-- Annn (R75). -/
def execLdI (nnn : Addr12) (s : State) : Result := .next (s.setI (zextAddr nnn))

/-- Fx1E (R76): VF written last (R46). -/
def execAddI (x : Reg) (s : State) : Result :=
  .next ((s.setI (indexSum s.i (s.getV x))).setV Reg.vf (indexOverflowFlag s.i (s.getV x)))

/-- Fx29 (R77). -/
def execLdF (x : Reg) (s : State) : Result := .next (s.setI (glyphAddress s.params (s.getV x)))

/-- Fx33 (R78). -/
def execLdB (x : Reg) (s : State) : Result :=
  .next (s.withRange 3 (s.writeBytes s.i.toNat (bcdDigits (s.getV x))))

/-- Fx55 (R79). -/
def execLdMemVx (x : Reg) (s : State) : Result :=
  .next (s.withRange (x.val + 1) (s.writeBytes s.i.toNat (s.regsUpTo x)))

/-- Fx65 (R80). -/
def execLdVxMem (x : Reg) (s : State) : Result :=
  .next (s.withRange (x.val + 1) (s.loadRegs x s.i.toNat))

end Sys2Proof.Machine
end

