-- ==== Sys2Proof/Machine/TimersKeys.lean ====
section
/-! DEFINITION. The timer and keyboard instructions (44_timers_keys.md). An instruction that reads the key takes one snapshot (R103). -/

namespace Sys2Proof.Machine

/-- Ex9E (R85). -/
def execSkp (x : Reg) (s : State) : Result :=
  .next (s.noteKeyRead.skipIf (keyEquals s.keySnapshot (s.getV x)))

/-- ExA1 (R86). -/
def execSknp (x : Reg) (s : State) : Result :=
  .next (s.noteKeyRead.skipIf (¬ keyEquals s.keySnapshot (s.getV x)))

/-- Fx07 (R87). -/
def execLdVxDt (x : Reg) (s : State) : Result := .next (s.setV x s.dt)

/-- R88: with no key PC goes back to the Fx0A; with a key `V[x]` takes its code. -/
def State.takeKey (s : State) (x : Reg) : Option Key → State
  | none => s.setPc (s.pc - 2)
  | some k => s.setV x (k.setWidth 8)

/-- Fx0A (R88). Whether the step is Blocked stands in Machine/Report.lean. -/
def execLdVxK (x : Reg) (s : State) : Result := .next (s.noteKeyRead.takeKey x s.keySnapshot)

/-- Fx15 (R89). -/
def execLdDtVx (x : Reg) (s : State) : Result := .next (s.setDt (s.getV x))

/-- Fx18 (R90): no request is made of the Audio sink. -/
def execLdStVx (x : Reg) (s : State) : Result := .next (s.setSt (s.getV x))

end Sys2Proof.Machine
end

