-- ==== Sys2Proof/Machine/Step.lean ====
section
/-! DEFINITION. `step()`, one fetch-decode-execute cycle (R45), and the host's way to place the word the next step runs. -/

namespace Sys2Proof.Machine

/-- R45. From a faulted state there is no step (R94): the answer is the recorded fault. A fetch out of memory takes its fault before the
pre-advance (R29, R96). An illegal word has the effect of the pre-advance alone (R47, R93). Otherwise the instruction executes on the
pre-advanced state. What the step returns to the driver is `stepReport` in Machine/Report.lean (R95). -/
def step (s : State) : Host.Outcome State Fault Refusal :=
  match s.fault with
  | some f => .fault f
  | none =>
    match s.fetchWord with
    | none => .next s.takeFetchFault
    | some w =>
      match decodeWord w with
      | .unknownInstruction _ => .next s.preAdvance
      | .instr i => exec i s.preAdvance

/-- The state with the one-word instruction `w` stored where `step` fetches next (log 10). Bits at and above `nbits` are 0. -/
def State.withFetchWord (s : State) (nbits w : Nat) : State := s.placeWord (BitVec.ofNat 16 (w % 2 ^ nbits))

end Sys2Proof.Machine
end

