-- ==== Sys2Proof/Machine/Listing.lean ====
section
/-! DEFINITION. The printed form of an instruction and of an illegal word (R50). Numbers are printed in hexadecimal, the row count in
decimal (log 15). -/

namespace Sys2Proof.Machine

/-- One hexadecimal digit. -/
def hexDigit (n : Nat) : String := ("0123456789ABCDEF".toList.getD (n % 16) '0').toString

/-- `width` hexadecimal digits of `n`, the most significant first. -/
def hexDigits : Nat → Nat → String
  | 0, _ => ""
  | width + 1, n => hexDigits width (n / 16) ++ hexDigit n

/-- `V0` to `VF`. -/
def regName (x : Reg) : String := "V" ++ hexDigit x.val

/-- A byte operand. -/
def byteText (kk : Byte) : String := "0x" ++ hexDigits 2 kk.toNat

/-- An address operand. -/
def addrText (nnn : Addr12) : String := "0x" ++ hexDigits 3 nnn.toNat

/-- A two-register form. -/
def regRegText (name : String) (x y : Reg) : String := name ++ " " ++ regName x ++ ", " ++ regName y

/-- A register and byte form. -/
def regByteText (name : String) (x : Reg) (kk : Byte) : String := name ++ " " ++ regName x ++ ", " ++ byteText kk

/-- A shift: `Vy` is printed if it is not V0. -/
def shiftText (name : String) (x y : Reg) : String :=
  if y = 0 then name ++ " " ++ regName x else regRegText name x y

/-- R50: the printed form of an instruction. -/
def listingOf : Instr → String
  | .cls => "CLS"
  | .ret => "RET"
  | .jp nnn => "JP " ++ addrText nnn
  | .call nnn => "CALL " ++ addrText nnn
  | .seByte x kk => regByteText "SE" x kk
  | .sneByte x kk => regByteText "SNE" x kk
  | .seReg x y => regRegText "SE" x y
  | .ldByte x kk => regByteText "LD" x kk
  | .addByte x kk => regByteText "ADD" x kk
  | .ldReg x y => regRegText "LD" x y
  | .orReg x y => regRegText "OR" x y
  | .andReg x y => regRegText "AND" x y
  | .xorReg x y => regRegText "XOR" x y
  | .addReg x y => regRegText "ADD" x y
  | .subReg x y => regRegText "SUB" x y
  | .shr x y => shiftText "SHR" x y
  | .subnReg x y => regRegText "SUBN" x y
  | .shl x y => shiftText "SHL" x y
  | .sneReg x y => regRegText "SNE" x y
  | .ldI nnn => "LD I, " ++ addrText nnn
  | .jpV0 nnn => "JP V0, " ++ addrText nnn
  | .rnd x kk => regByteText "RND" x kk
  | .drw x y n => regRegText "DRW" x y ++ ", " ++ toString n.toNat
  | .skp x => "SKP " ++ regName x
  | .sknp x => "SKNP " ++ regName x
  | .ldVxDt x => "LD " ++ regName x ++ ", DT"
  | .ldVxK x => "LD " ++ regName x ++ ", K"
  | .ldDtVx x => "LD DT, " ++ regName x
  | .ldStVx x => "LD ST, " ++ regName x
  | .addI x => "ADD I, " ++ regName x
  | .ldF x => "LD F, " ++ regName x
  | .ldB x => "LD B, " ++ regName x
  | .ldMemVx x => "LD [I], " ++ regName x
  | .ldVxMem x => "LD " ++ regName x ++ ", [I]"

/-- R50: the printed form of a word; an illegal word is printed `.word 0xHHHH`. -/
def listingOfWord (w : Word) : String :=
  match decodeWord w with
  | .instr i => listingOf i
  | .unknownInstruction u => ".word 0x" ++ hexDigits 4 u.toNat

end Sys2Proof.Machine
end

