-- ==== Sys2Proof/Machine/Report.lean ====
section
/-! DEFINITION. The outcomes the core returns to its driver (R92, R95) and the fault kinds with their codes (R91, D17). They are
returned, not stored (R23): a step is the pair of `step s` and `stepReport s` (log 8). -/

namespace Sys2Proof.Machine

/-- R91: the five faults. -/
inductive FaultKind where
  | unknownInstruction
  | stackOverflow
  | stackUnderflow
  | outOfBoundsMemoryAccess
  | loadTooLarge
  deriving DecidableEq, Repr

/-- R91, R92: the class of a fault. -/
inductive FaultClass where
  | nonFatal
  | fatal
  | rejectedLoad
  deriving DecidableEq, Repr

/-- R91: the numeric codes (D17). -/
def FaultKind.code : FaultKind → Nat
  | .unknownInstruction => 1
  | .stackOverflow => 2
  | .stackUnderflow => 3
  | .outOfBoundsMemoryAccess => 4
  | .loadTooLarge => 5

/-- R91: the classes. -/
def FaultKind.faultClass : FaultKind → FaultClass
  | .unknownInstruction => .nonFatal
  | .stackOverflow => .fatal
  | .stackUnderflow => .fatal
  | .outOfBoundsMemoryAccess => .fatal
  | .loadTooLarge => .rejectedLoad

/-- The kind of a recorded fault (R17). -/
def Fault.kind : Fault → FaultKind
  | .stackOverflow _ => .stackOverflow
  | .stackUnderflow _ => .stackUnderflow
  | .outOfBoundsMemoryAccess _ _ => .outOfBoundsMemoryAccess

/-- The PC of the faulting instruction (R17). -/
def Fault.pc : Fault → Word
  | .stackOverflow pc => pc
  | .stackUnderflow pc => pc
  | .outOfBoundsMemoryAccess pc _ => pc

/-- R95: what a step returns. -/
inductive StepReport where
  | ok
  | blocked
  | nonFatal (kind : FaultKind) (pc : Word) (word : Word)
  | fatal (f : Fault)
  deriving DecidableEq, Repr

/-- R88: the instruction is Fx0A and no key is in the snapshot it takes. -/
def blocks (i : Instr) (s : State) : Bool :=
  match i with
  | .ldVxK _ => s.keySnapshot = none
  | _ => false

/-- R95: what executing `i` on the pre-advanced state `s` returns. None where `exec` has no next state. -/
def execReport (i : Instr) (s : State) : Option StepReport :=
  match exec i s with
  | .next t =>
    match t.fault with
    | some f => some (.fatal f)
    | none => some (if blocks i s then .blocked else .ok)
  | .fault _ => none
  | .refused _ => none

/-- R95: what `step()` returns, or none where it is refused because the fault record is set (R94). -/
def stepReport (s : State) : Option StepReport :=
  match s.fault with
  | some _ => none
  | none =>
    match s.fetchWord with
    | none => some (.fatal (.outOfBoundsMemoryAccess s.pc (firstOutOfRange s.pc.toNat)))
    | some w =>
      match decodeWord w with
      | .unknownInstruction u => some (.nonFatal .unknownInstruction s.pc u)
      | .instr i => execReport i s.preAdvance

end Sys2Proof.Machine
end

