-- ==== Sys2Proof/Machine/HostOps.lean ====
section
/-! DEFINITION. The operations the host invokes beside `step()` (R2): `reset()` (R110), `load(bytes)` (R112, R113), `tick60Hz()` (R97),
the key the Input source reports (R103), and the read accessors (R105). -/

namespace Sys2Proof.Machine

/-- `reset()` (R19, R110): every piece of the core's state at its reset value. The parameters stay, `toneOn` is not written (D23), and
what belongs to the environment (the key, the counters of free inputs) is not the core's to reset (log 14). -/
def State.resetCore (s : State) : State :=
  { State.constructed s.params with
    toneOn := s.toneOn, keyInput := s.keyInput, keyReads := s.keyReads, randomDraws := s.randomDraws }

/-- R112, R113: what a load returns. -/
inductive LoadReport where
  | ok
  | loadTooLarge (length : Nat)
  deriving DecidableEq, Repr

/-- R113: an image longer than 3584 bytes is rejected. -/
def loadReport (image : List Byte) : LoadReport :=
  if imageFits image then .ok else .loadTooLarge image.length

/-- `load(bytes)` (R112): a reset, then the image from 0x200; a rejected load changes no state (R113, D15). -/
def State.load (s : State) (image : List Byte) : State :=
  if imageFits image then s.resetCore.writeBytes Config.loadOffset image else s

/-- R97: a timer that is not 0 goes down by one; a timer at 0 stays. -/
def countDown (t : Byte) : Byte := if t ≠ 0 then BitVec.ofNat 8 (t.toNat - 1) else t

/-- R97, R104: the requests the core makes of the Audio sink. -/
inductive AudioRequest where
  | startTone
  | stopTone
  deriving DecidableEq, Repr

/-- R97: the request a tick makes, from the new ST. -/
def tickRequest (s : State) : AudioRequest := if countDown s.st ≠ 0 then .startTone else .stopTone

/-- R97: the state a tick leaves: both timers counted down, and the request recorded in `toneOn` (R16, R100). -/
def State.tick (s : State) : State :=
  { s with dt := countDown s.dt, st := countDown s.st, toneOn := tickRequest s = .startTone }

/-- `tick60Hz()` (R97): from a faulted state there is no tick (R94; log 3). -/
def tick60Hz (s : State) : Result :=
  match s.fault with
  | some f => .fault f
  | none => .next s.tick

/-- R103: the host changes what the Input source reports, between two operations of the core. -/
def State.setKeyInput (s : State) (k : KeyInput) : State := { s with keyInput := k }

/-- R105: what the read accessors show. -/
structure Observation where
  v     : Vector Byte 16
  i     : Word
  pc    : Word
  sp    : Nat
  stack : List Word
  dt    : Byte
  st    : Byte
  deriving DecidableEq, Repr

/-- R105: the read accessors; they change no state. -/
def State.observe (s : State) : Observation :=
  { v := s.v, i := s.i, pc := s.pc, sp := s.sp, stack := s.stack, dt := s.dt, st := s.st }

end Sys2Proof.Machine
end

