-- ==== Sys2Proof/Machine/Schedule.lean ====
section
/-! DEFINITION. Runs: the host invokes the core's operations one at a time, in any order (R2, R6, R98, R116). `Sys2Proof.core` alone is
the schedule of steps with nothing between them (log 7). -/

namespace Sys2Proof.Machine

/-- What the host can do to the core between two of its operations (R2, R103). -/
inductive HostOp where
  | reset
  | load (image : List Byte)
  | step
  | tick60Hz
  | setKeyInput (k : KeyInput)
  deriving DecidableEq, Repr

/-- One operation. `reset()` and `load` are allowed in any state, a faulted one included (R110). -/
def applyOp (op : HostOp) (s : State) : Result :=
  match op with
  | .reset => .next s.resetCore
  | .load image => .next (s.load image)
  | .step => step s
  | .tick60Hz => tick60Hz s
  | .setKeyInput k => .next (s.setKeyInput k)

/-- A run: operations in order, up to the first that is refused (R98). -/
def runOps : List HostOp → State → Result
  | [], s => .next s
  | op :: rest, s =>
    match applyOp op s with
    | .next t => runOps rest t
    | .fault f => .fault f
    | .refused r => .refused r

end Sys2Proof.Machine
end

