-- ==== Sys2Proof/Safety.lean ====
section
/-! DEFINITION. The terms claims about runs are stated in: the invariant (R24), the states a host can bring the core to (R98), and
the end of a run (R122). -/

namespace Sys2Proof.Machine

/-- R24, with what the model's own representation adds: parameters within the spec's bounds (R3), memory in its canonical form (R7), a
stack of STACK_DEPTH entries (R12), and a fault record whose PC is the PC the faulting step kept (R17, R94). The bounds of V, DT, ST and
the bytes of memory are their types. -/
structure State.Inv (s : State) : Prop where
  params_ok  : s.params.wellFormed = true
  mem_wf     : s.mem.wf s.params
  stack_len  : s.stack.length = s.params.stackDepth
  sp_le      : s.sp ≤ s.params.stackDepth
  i_le       : s.i.toNat ≤ 0xFFF
  pc_le      : s.pc.toNat ≤ 0x10FE
  stack_le   : ∀ a ∈ s.stack, a.toNat ≤ 0x1000
  fault_pc   : ∀ f, s.fault = some f → f.pc = s.pc

/-- R98: the states some sequence of the host's operations reaches from a newly constructed core with parameters within bounds. -/
inductive Reachable : State → Prop where
  | constructed (p : Params) (h : p.wellFormed = true) : Reachable (State.constructed p)
  | op (o : HostOp) (s t : State) (hs : Reachable s) (h : applyOp o s = .next t) : Reachable t

/-- R122 (a): a bad end, the state after a Fatal outcome (R94). -/
def badEnd (s : State) : Prop := s.fault ≠ none

/-- R122 (b): a good end, a state whose word at PC is `JP PC`. -/
def goodEnd (s : State) : Prop :=
  s.fault = none ∧ ∃ w nnn, s.fetchWord = some w ∧ decodeWord w = .instr (.jp nnn) ∧ zextAddr nnn = s.pc

end Sys2Proof.Machine
end

