-- ==== Sys2Proof/Certificates/Slice0/Obligations.lean ====
section
/-! DEFINITION. The statements for the provers. The terms they share stand first, in `Sys2Proof.Claims`. A meaning runs on the state
after the pre-advance: in a statement about `exec i s`, `s.pc` is the fetch address plus 2 (R45, R118). -/

namespace Sys2Proof.Claims

open Sys2Proof.Machine

/-- Nothing but general registers outside `xs` could have changed: every other field is as before, every register outside `xs` is as
before, every byte of memory reads as before. -/
def RegFrame (s t : State) (xs : List Reg) : Prop :=
  t = { s with v := t.v } ∧ (∀ r, r ∉ xs → t.getV r = s.getV r) ∧ ∀ a, t.readByte a = s.readByte a

/-- Nothing but `n` bytes of memory from `a` could have changed. -/
def StoreFrame (s t : State) (a n : Nat) : Prop :=
  t = { s with mem := t.mem } ∧ ∀ b, (b < a ∨ a + n ≤ b) → t.readByte b = s.readByte b

/-- 1 where the condition holds, else 0. -/
def Bit (b : Byte) (c : Prop) : Prop := (c → b = 1) ∧ (¬ c → b = 0)

/-- The number of bytes an instruction accesses from I (R26). -/
def rangeBytes : Instr → Option Nat
  | .drw _ _ n => some n.toNat
  | .ldB _ => some 3
  | .ldMemVx x => some (x.val + 1)
  | .ldVxMem x => some (x.val + 1)
  | _ => none

/-- The general registers an instruction writes: its destination, and VF where it sets a flag (R9). -/
def writesReg (i : Instr) (r : Reg) : Prop :=
  match i with
  | .ldByte x _ | .addByte x _ | .ldReg x _ | .orReg x _ | .andReg x _ | .xorReg x _ | .rnd x _ => r = x
  | .ldVxDt x | .ldVxK x => r = x
  | .addReg x _ | .subReg x _ | .shr x _ | .subnReg x _ | .shl x _ => r = x ∨ r = 15
  | .addI _ | .drw _ _ _ => r = 15
  | .ldVxMem x => r ≤ x
  | _ => False

/-- The instruction reads the key (R103). -/
def readsKey : Instr → Prop
  | .skp _ | .sknp _ | .ldVxK _ => True
  | _ => False

/-- A bit of the sprite drawn at `(x0, y0)` falls on the pixel: bit `7 - k` of row `j` at column `(x0 + k) mod 64` and row
`(y0 + j) mod 32` (R82). -/
def covers (rows : List Byte) (x0 y0 : Byte) (c : Fin 64) (r : Fin 32) : Prop :=
  ∃ j k, ∃ h : j < rows.length, k < 8 ∧ rows[j].getLsbD (7 - k) = true ∧
    (x0.toNat + k) % 64 = c.val ∧ (y0.toNat + j) % 32 = r.val

/-- The step at `s` executes the instruction `i`: there is no fault, and the two bytes at PC are in memory and decode to `i` (R45). -/
def Executes (s : State) (i : Instr) : Prop :=
  s.fault = none ∧ s.pc.toNat ≤ 4094 ∧
    decodeWord (wordOfBytes (s.readByte s.pc.toNat) (s.readByte (s.pc.toNat + 1))) = .instr i

/-- The illegal words, as the table of R47 lists them. -/
def illegalWord (w : Nat) : Prop :=
  (w < 0x1000 ∧ w ≠ 0x00E0 ∧ w ≠ 0x00EE) ∨
  (w / 4096 = 0x5 ∧ w % 16 ≠ 0) ∨
  (w / 4096 = 0x8 ∧ w % 16 ∈ [0x8, 0x9, 0xA, 0xB, 0xC, 0xD, 0xF]) ∨
  (w / 4096 = 0x9 ∧ w % 16 ≠ 0) ∨
  (w / 4096 = 0xE ∧ w % 256 ∉ [0x9E, 0xA1]) ∨
  (w / 4096 = 0xF ∧ w % 256 ∉ [0x07, 0x0A, 0x15, 0x18, 0x1E, 0x29, 0x33, 0x55, 0x65])

/-- Along `n` steps from `s`, no step executes Fx15 or Fx18. -/
def NoTimerWrite : Nat → State → Prop
  | 0, _ => True
  | n + 1, s => (∀ x, ¬ Executes s (.ldDtVx x) ∧ ¬ Executes s (.ldStVx x)) ∧ ∀ t, step s = .next t → NoTimerWrite n t

end Sys2Proof.Claims

open Sys2Proof Sys2Proof.Machine Sys2Proof.Claims

/-! ## Reset, load, tick -/

/-- R19, R109: the state after `reset()` in any state, and the newly constructed core. -/
def Obligations.ResetGivesTheResetValues : Prop :=
  (∀ s : State, ∃ t, applyOp .reset s = .next t ∧
    (∀ a, a < 80 → t.readByte (s.params.fontBase + a) = s.params.fontGlyphs.getD a 0) ∧
    (∀ a, (a < s.params.fontBase ∨ s.params.fontBase + 80 ≤ a) → t.readByte a = 0) ∧
    (∀ x, t.getV x = 0) ∧ t.i = 0 ∧ t.pc.toNat = 0x200 ∧
    t.stack.length = s.params.stackDepth ∧ (∀ j, t.stackEntry j = 0) ∧ t.sp = 0 ∧ t.dt = 0 ∧ t.st = 0 ∧
    (∀ c r, t.fb.pixel c r = false) ∧ t.toneOn = s.toneOn ∧ t.fault = none) ∧
  ∀ p : Params, applyOp .reset (State.constructed p) = .next (State.constructed p) ∧
    (State.constructed p).toneOn = false ∧ (State.constructed p).fault = none

/-- R111. -/
def Obligations.ResetTwiceIsResetOnce : Prop :=
  ∀ s t u : State, applyOp .reset s = .next t → applyOp .reset t = .next u → u = t

/-- R112: a load that fits resets, then copies the image to 0x200 on; the rest is the reset state. -/
def Obligations.LoadCopiesTheImageOverTheResetState : Prop :=
  ∀ (s : State) (image : List Byte), image.length ≤ 3584 →
    loadReport image = .ok ∧ ∃ t, applyOp (.load image) s = .next t ∧ t = { s.resetCore with mem := t.mem } ∧
      (∀ j (h : j < image.length), t.readByte (0x200 + j) = image[j]) ∧
      ∀ a, (a < 0x200 ∨ 0x200 + image.length ≤ a) → t.readByte a = s.resetCore.readByte a

/-- R114: the first step after a successful load runs the image's first word, at 0x200. -/
def Obligations.FirstStepAfterLoadRunsTheImage : Prop :=
  ∀ (s : State) (hi lo : Byte) (rest : List Byte) (i : Instr), rest.length + 2 ≤ 3584 →
    decodeWord (wordOfBytes hi lo) = .instr i →
    step (s.load (hi :: lo :: rest)) = exec i { s.load (hi :: lo :: rest) with pc := 0x202 }

/-- R113. -/
def Obligations.LoadTooLargeChangesNothing : Prop :=
  ∀ (s : State) (image : List Byte), 3584 < image.length →
    loadReport image = .loadTooLarge image.length ∧ applyOp (.load image) s = .next s

/-- R97: each timer goes down by one and stops at 0; the tone is requested according to the new ST; from a faulted state there is no
tick; nothing else changes. -/
def Obligations.TickCountsDownAndRequestsTheTone : Prop :=
  ∀ s : State, (s.fault = none → ∃ t, tick60Hz s = .next t ∧
      t.dt.toNat = s.dt.toNat - 1 ∧ t.st.toNat = s.st.toNat - 1 ∧
      (t.st ≠ 0 → tickRequest s = .startTone ∧ t.toneOn = true) ∧
      (t.st = 0 → tickRequest s = .stopTone ∧ t.toneOn = false) ∧
      t = { s with dt := t.dt, st := t.st, toneOn := t.toneOn }) ∧
    (s.fault ≠ none → ∀ t, tick60Hz s ≠ .next t)

/-! ## The step -/

/-- R45: a step at a word that decodes to `i` is `exec i` on the pre-advanced state. -/
def Obligations.StepRunsTheDecodedInstruction : Prop :=
  ∀ (s : State) (i : Instr), Executes s i → step s = exec i { s with pc := s.pc + 2 }

/-- R93: an illegal word has the effect of the pre-advance alone, and is reported. -/
def Obligations.IllegalWordOnlyAdvancesPc : Prop :=
  ∀ (s : State) (w : Word), s.fault = none → s.fetchWord = some w → decodeWord w = .unknownInstruction w →
    step s = .next { s with pc := s.pc + 2 } ∧ stepReport s = some (.nonFatal .unknownInstruction s.pc w)

/-- R29: the fetch reads PC and PC + 1 big-endian, and faults where PC + 1 is above 4095. The recorded address is the first one above
4095 of the access (log 4: R91 and the test vectors against R29's pseudocode). -/
def Obligations.FetchIsBigEndianAndFaultsPastTheEnd : Prop :=
  ∀ s : State,
    (s.pc.toNat ≤ 4094 → ∃ w, s.fetchWord = some w ∧
      w.toNat = (s.readByte s.pc.toNat).toNat * 256 + (s.readByte (s.pc.toNat + 1)).toNat) ∧
    (4094 < s.pc.toNat → s.fault = none →
      step s = .next { s with fault := some (.outOfBoundsMemoryAccess s.pc (max s.pc.toNat 4096)) })

/-- R94: a step that takes a fatal fault changes nothing but the record; a faulted state has no step and no tick; of the host's
operations only `reset()` and a load that fits leave it. -/
def Obligations.FatalFaultChangesOnlyTheRecord : Prop :=
  (∀ (s t : State) (f : Fault), s.fault = none → step s = .next t → t.fault = some f →
    t = { s with fault := some f } ∧ f.pc = s.pc) ∧
  (∀ s : State, s.fault ≠ none → (∀ t, step s ≠ .next t) ∧ ∀ t, tick60Hz s ≠ .next t) ∧
  ∀ (op : HostOp) (s t : State), s.fault ≠ none → applyOp op s = .next t →
    (t.fault = none ↔ op = .reset ∨ ∃ image : List Byte, image.length ≤ 3584 ∧ op = .load image)

/-- R91, R96: where a step takes a fatal fault, and which (the recorded addresses: log 4). -/
def Obligations.FatalFaultsAreTakenExactlyWhereListed : Prop :=
  ∀ (s t : State) (f : Fault), s.fault = none → s.sp ≤ s.params.stackDepth → step s = .next t →
    (t.fault = some f ↔
      (4094 < s.pc.toNat ∧ f = .outOfBoundsMemoryAccess s.pc (max s.pc.toNat 4096)) ∨
      (Executes s .ret ∧ s.sp = 0 ∧ f = .stackUnderflow s.pc) ∨
      (∃ nnn, Executes s (.call nnn) ∧ s.sp = s.params.stackDepth ∧ f = .stackOverflow s.pc) ∨
      (∃ i n, Executes s i ∧ rangeBytes i = some n ∧ 0 < n ∧ 4095 < s.i.toNat + n - 1 ∧
        f = .outOfBoundsMemoryAccess s.pc (max s.i.toNat 4096)))

/-- R95: every step from a state with no fault record returns exactly one outcome, and each says what the step did; a tick always
succeeds there. The model's choices in it: a step that raises a fatal fault answers a next state, the one with the record set (log 3,
DESIGN CHOICE), and a Blocked step moves the model's reading counter on (log 5, DESIGN CHOICE). -/
def Obligations.EveryStepReturnsOneOutcome : Prop :=
  ∀ s : State, s.fault = none → (∃ t, tick60Hz s = .next t) ∧ ∃ t r, step s = .next t ∧ stepReport s = some r ∧
    (r = .ok → t.fault = none ∧ ∃ i, Executes s i) ∧
    (r = .blocked → (∃ x, Executes s (.ldVxK x)) ∧ s.keySnapshot = none ∧ t = { s with keyReads := s.keyReads + 1 }) ∧
    (∀ k pc w, r = .nonFatal k pc w → k = .unknownInstruction ∧ pc = s.pc ∧ s.fetchWord = some w ∧
      decodeWord w = .unknownInstruction w ∧ t = { s with pc := s.pc + 2 }) ∧
    (∀ f, r = .fatal f → t = { s with fault := some f })

/-- R122 (b): in a good end, `JP PC` at PC, a further step changes nothing. -/
def Obligations.SelfJumpStepChangesNothing : Prop :=
  ∀ s : State, goodEnd s → step s = .next s

/-- R39: bytes stored at PC are what the next step executes: the instruction whose two bytes were stored there runs. -/
def Obligations.StoredInstructionIsTheOneExecuted : Prop :=
  ∀ (s : State) (i : Instr), s.fault = none → s.mem.wf s.params → s.pc.toNat ≤ 4094 →
    step (s.writeBytes s.pc.toNat (encodeBytes i)) =
      exec i { s.writeBytes s.pc.toNat (encodeBytes i) with pc := s.pc + 2 }

/-! ## Decode and encode -/

/-- R43: decoding the encoding of an instruction gives it back, operand for operand, and leaves the bytes after it. -/
def Obligations.DecodeOfEncodeIsTheInstruction : Prop :=
  ∀ (i : Instr) (rest : List Byte), i.wellFormed = true →
    decodeWord (encode i) = .instr i ∧ decodeBytes (encodeBytes i ++ rest) = some (.instr i, rest)

/-- R41, R43: every word that decodes to an instruction is that instruction's encoding: no two words share one. For 8xy6 and 8xyE this
is the model's choice: `Instr` keeps the field y, which they ignore (log 25, DESIGN CHOICE). -/
def Obligations.EncodeOfDecodeIsTheWord : Prop :=
  ∀ (w : Word) (i : Instr), decodeWord w = .instr i → encode i = w

/-- R43's last paragraph: the decoder and the table's masks agree, and exactly one row or none matches each word. -/
def Obligations.ExactlyOneTableRowOrNoneMatches : Prop :=
  ∀ w : Word, opcodeRows.filter (fun r => r.matchesWord w) =
    match decodeWord w with
    | .instr i => [i.row]
    | .unknownInstruction _ => []

/-- R47: the illegal words are exactly the listed ones. -/
def Obligations.IllegalWordsAreExactlyTheListed : Prop :=
  ∀ w : Word, decodeWord w = .unknownInstruction w ↔ illegalWord w.toNat

/-- R41: words written out bit by bit from the patterns decode to the instructions they stand for. -/
def Obligations.WordsFromThePatternsDecode : Prop :=
  decodeWord 0b0010_0011_0100_0101#16 = .instr (.call 0x345) ∧
  decodeWord 0b0011_0011_0100_0010#16 = .instr (.seByte 3 0x42) ∧
  decodeWord 0b1000_0001_0010_0101#16 = .instr (.subReg 1 2) ∧
  decodeWord 0b1101_0000_0001_0101#16 = .instr (.drw 0 1 5) ∧
  decodeWord 0b1110_0010_1010_0001#16 = .instr (.sknp 2) ∧
  decodeWord 0b1111_0010_0110_0101#16 = .instr (.ldVxMem 2) ∧
  decodeWord 0b0101_0001_0010_0001#16 = .unknownInstruction 0x5121

/-! ## Control flow -/

/-- R53: RET pops the top return address into PC, or takes StackUnderflow. -/
def Obligations.RetPopsTheReturnAddress : Prop :=
  ∀ s : State,
    (0 < s.sp → exec .ret s = .next { s with sp := s.sp - 1, pc := s.stackEntry (s.sp - 1) }) ∧
    (s.sp = 0 → exec .ret s = .next { s with pc := s.pc - 2, fault := some (.stackUnderflow (s.pc - 2)) })

/-- R55: CALL pushes the pre-advanced PC and jumps, or takes StackOverflow. -/
def Obligations.CallPushesTheReturnAddress : Prop :=
  ∀ (s : State) (nnn : Addr12), s.stack.length = s.params.stackDepth →
    (s.sp < s.params.stackDepth → ∃ t, exec (.call nnn) s = .next t ∧ t.pc.toNat = nnn.toNat ∧ t.sp = s.sp + 1 ∧
      t.stackEntry s.sp = s.pc ∧ (∀ j, j ≠ s.sp → t.stackEntry j = s.stackEntry j) ∧
      t = { s with pc := t.pc, sp := t.sp, stack := t.stack }) ∧
    (s.sp = s.params.stackDepth →
      exec (.call nnn) s = .next { s with pc := s.pc - 2, fault := some (.stackOverflow (s.pc - 2)) })

/-- R53, R55, the source's round trip: a RET executed after a CALL, whatever PC, continues just past the CALL with the pointer as it was. -/
def Obligations.CallThenRetReturnsPastTheCall : Prop :=
  ∀ (s t : State) (nnn : Addr12) (pc' : Word), s.stack.length = s.params.stackDepth → s.sp < s.params.stackDepth →
    exec (.call nnn) s = .next t →
    ∃ u, exec .ret { t with pc := pc' } = .next u ∧ u.pc = s.pc ∧ u.sp = s.sp ∧ u = { s with stack := t.stack }

/-- R54, R60: the jumps set PC, to `nnn` and to `nnn + V0` not reduced, and change nothing else. -/
def Obligations.JumpsSetPc : Prop :=
  ∀ (s : State) (nnn : Addr12),
    (∃ t, exec (.jp nnn) s = .next t ∧ t.pc.toNat = nnn.toNat ∧ t = { s with pc := t.pc }) ∧
    (∃ t, exec (.jpV0 nnn) s = .next t ∧ t.pc.toNat = nnn.toNat + (s.getV 0).toNat ∧ t = { s with pc := t.pc })

/-- R56 to R59: the four skips add a further 2 to PC exactly where their condition holds, and change nothing else. -/
def Obligations.SkipsAddTwoWhereTheConditionHolds : Prop :=
  ∀ (s : State) (x y : Reg) (kk : Byte),
    exec (.seByte x kk) s = .next { s with pc := if s.getV x = kk then s.pc + 2 else s.pc } ∧
    exec (.sneByte x kk) s = .next { s with pc := if s.getV x ≠ kk then s.pc + 2 else s.pc } ∧
    exec (.seReg x y) s = .next { s with pc := if s.getV x = s.getV y then s.pc + 2 else s.pc } ∧
    exec (.sneReg x y) s = .next { s with pc := if s.getV x ≠ s.getV y then s.pc + 2 else s.pc }

/-! ## Register load, arithmetic and logic -/

/-- R62, R64 to R67: the loads and the bitwise operations write their result to Vx and nothing else; VF is no flag of theirs. -/
def Obligations.LoadsAndLogicWriteOnlyVx : Prop :=
  ∀ (s : State) (x y : Reg) (kk : Byte),
    (∃ t, exec (.ldByte x kk) s = .next t ∧ t.getV x = kk ∧ RegFrame s t [x]) ∧
    (∃ t, exec (.ldReg x y) s = .next t ∧ t.getV x = s.getV y ∧ RegFrame s t [x]) ∧
    (∃ t, exec (.orReg x y) s = .next t ∧ t.getV x = s.getV x ||| s.getV y ∧ RegFrame s t [x]) ∧
    (∃ t, exec (.andReg x y) s = .next t ∧ t.getV x = s.getV x &&& s.getV y ∧ RegFrame s t [x]) ∧
    (∃ t, exec (.xorReg x y) s = .next t ∧ t.getV x = s.getV x ^^^ s.getV y ∧ RegFrame s t [x])

/-- R63: 7xkk adds modulo 256 and sets no flag. -/
def Obligations.AddByteWrapsAndSetsNoFlag : Prop :=
  ∀ (s : State) (x : Reg) (kk : Byte), ∃ t, exec (.addByte x kk) s = .next t ∧
    (t.getV x).toNat = ((s.getV x).toNat + kk.toNat) % 256 ∧ RegFrame s t [x]

/-- R68: 8xy4, for every x and y, VF included. -/
def Obligations.AddSetsVfToTheCarry : Prop :=
  ∀ (s : State) (x y : Reg), ∃ t, exec (.addReg x y) s = .next t ∧
    Bit (t.getV 15) ((s.getV x).toNat + (s.getV y).toNat > 255) ∧
    (x ≠ 15 → (t.getV x).toNat = ((s.getV x).toNat + (s.getV y).toNat) % 256) ∧ RegFrame s t [x, 15]

/-- R69, R71: 8xy5 and 8xy7, for every x and y, VF included. -/
def Obligations.SubtractsSetVfToNotBorrow : Prop :=
  ∀ (s : State) (x y : Reg),
    (∃ t, exec (.subReg x y) s = .next t ∧ Bit (t.getV 15) ((s.getV y).toNat ≤ (s.getV x).toNat) ∧
      (x ≠ 15 → ((t.getV x).toNat : Int) = ((s.getV x).toNat - (s.getV y).toNat : Int) % 256) ∧ RegFrame s t [x, 15]) ∧
    (∃ t, exec (.subnReg x y) s = .next t ∧ Bit (t.getV 15) ((s.getV x).toNat ≤ (s.getV y).toNat) ∧
      (x ≠ 15 → ((t.getV x).toNat : Int) = ((s.getV y).toNat - (s.getV x).toNat : Int) % 256) ∧ RegFrame s t [x, 15])

/-- R70, R72: the shifts by one bit; VF takes the bit shifted out; the y field is ignored. -/
def Obligations.ShiftsSetVfToTheBitShiftedOut : Prop :=
  ∀ (s : State) (x y : Reg),
    (∃ t, exec (.shr x y) s = .next t ∧ (t.getV 15).toNat = (s.getV x).toNat % 2 ∧
      (x ≠ 15 → (t.getV x).toNat = (s.getV x).toNat / 2) ∧ RegFrame s t [x, 15]) ∧
    (∃ t, exec (.shl x y) s = .next t ∧ (t.getV 15).toNat = (s.getV x).toNat / 128 ∧
      (x ≠ 15 → (t.getV x).toNat = (s.getV x).toNat * 2 % 256) ∧ RegFrame s t [x, 15])

/-- R73: the result is a byte ANDed with kk, whatever the draw; the bits outside kk are 0; the model's draw counter moves on (log 6). -/
def Obligations.RandomByteIsMaskedByKk : Prop :=
  ∀ (s : State) (x : Reg) (kk : Byte), ∃ (t : State) (draw : Byte), exec (.rnd x kk) s = .next t ∧
    t.getV x = draw &&& kk ∧ t.getV x &&& ~~~kk = 0 ∧ (∀ r, r ≠ x → t.getV r = s.getV r) ∧
    (∀ a, t.readByte a = s.readByte a) ∧ t = { s with v := t.v, randomDraws := s.randomDraws + 1 }

/-! ## Index and memory -/

/-- R75, R77: Annn and Fx29 write I and nothing else. -/
def Obligations.IndexLoadsWriteOnlyI : Prop :=
  ∀ (s : State) (x : Reg) (nnn : Addr12), s.params.wellFormed = true →
    (∃ t, exec (.ldI nnn) s = .next t ∧ t.i.toNat = nnn.toNat ∧ t = { s with i := t.i }) ∧
    (∃ t, exec (.ldF x) s = .next t ∧ t.i.toNat = s.params.fontBase + (s.getV x).toNat * 5 ∧ t = { s with i := t.i })

/-- R76: Fx1E, for every x, VF included. -/
def Obligations.AddToIndexWrapsAndSetsVf : Prop :=
  ∀ (s : State) (x : Reg), ∃ t, exec (.addI x) s = .next t ∧
    t.i.toNat = (s.i.toNat + (s.getV x).toNat) % 0x1000 ∧ Bit (t.getV 15) (s.i.toNat + (s.getV x).toNat > 0xFFF) ∧
    (∀ r, r ≠ 15 → t.getV r = s.getV r) ∧ (∀ a, t.readByte a = s.readByte a) ∧ t = { s with i := t.i, v := t.v }

/-- R78: Fx33 stores the three decimal digits at I, I + 1, I + 2, most significant first, and nothing else. -/
def Obligations.BcdStoresTheDecimalDigits : Prop :=
  ∀ (s : State) (x : Reg), s.mem.wf s.params →
    (s.i.toNat + 2 ≤ 4095 → ∃ t, exec (.ldB x) s = .next t ∧ StoreFrame s t s.i.toNat 3 ∧
      (t.readByte s.i.toNat).toNat = (s.getV x).toNat / 100 ∧
      (t.readByte (s.i.toNat + 1)).toNat = (s.getV x).toNat / 10 % 10 ∧
      (t.readByte (s.i.toNat + 2)).toNat = (s.getV x).toNat % 10) ∧
    (4095 < s.i.toNat + 2 → exec (.ldB x) s =
      .next { s with pc := s.pc - 2, fault := some (.outOfBoundsMemoryAccess (s.pc - 2) (max s.i.toNat 4096)) })

/-- R79: Fx55 stores V0 to Vx at I to I + x, and nothing else. -/
def Obligations.StoreRegistersWritesV0ToVx : Prop :=
  ∀ (s : State) (x : Reg), s.mem.wf s.params →
    (s.i.toNat + x.val ≤ 4095 → ∃ t, exec (.ldMemVx x) s = .next t ∧ StoreFrame s t s.i.toNat (x.val + 1) ∧
      ∀ r : Reg, r ≤ x → t.readByte (s.i.toNat + r.val) = s.getV r) ∧
    (4095 < s.i.toNat + x.val → exec (.ldMemVx x) s =
      .next { s with pc := s.pc - 2, fault := some (.outOfBoundsMemoryAccess (s.pc - 2) (max s.i.toNat 4096)) })

/-- R80: Fx65 loads V0 to Vx from I to I + x, and nothing else. -/
def Obligations.LoadRegistersReadsV0ToVx : Prop :=
  ∀ (s : State) (x : Reg),
    (s.i.toNat + x.val ≤ 4095 → ∃ t, exec (.ldVxMem x) s = .next t ∧ t = { s with v := t.v } ∧
      (∀ r : Reg, r ≤ x → t.getV r = s.readByte (s.i.toNat + r.val)) ∧ (∀ r : Reg, x < r → t.getV r = s.getV r) ∧
      ∀ a, t.readByte a = s.readByte a) ∧
    (4095 < s.i.toNat + x.val → exec (.ldVxMem x) s =
      .next { s with pc := s.pc - 2, fault := some (.outOfBoundsMemoryAccess (s.pc - 2) (max s.i.toNat 4096)) })

/-! ## Display -/

/-- R81: CLS clears every pixel and changes nothing else. -/
def Obligations.ClearScreenClearsEveryPixel : Prop :=
  ∀ s : State, ∃ t, exec .cls s = .next t ∧ (∀ c r, t.fb.pixel c r = false) ∧ t = { s with fb := t.fb }

/-- R82, R84: the blit of at most 15 rows is the old framebuffer XOR the wrapped sprite mask, and it reports a collision exactly when the
old framebuffer AND the mask is not zero. -/
def Obligations.BlitIsXorWithTheWrappedMask : Prop :=
  ∀ (rows : List Byte) (x0 y0 : Byte) (fb : FrameBuffer), rows.length ≤ 15 →
    (∀ c r, (blit rows x0 y0 fb).1.pixel c r = true ↔ ¬ (fb.pixel c r = true ↔ covers rows x0 y0 c r)) ∧
    ((blit rows x0 y0 fb).2 = true ↔ ∃ c r, fb.pixel c r = true ∧ covers rows x0 y0 c r)

/-- R83: Dxyn in range draws the n bytes at I at (Vx, Vy), sets VF to the collision, and leaves I, memory and every other register; out
of range it takes its fault before a pixel changes (the recorded address: log 4). -/
def Obligations.DrawXorsTheSpriteAndSetsVf : Prop :=
  ∀ (s : State) (x y : Reg) (n : RowCount),
    (inRange s.i.toNat n.toNat → ∃ t, exec (.drw x y n) s = .next t ∧
      (∀ c r, t.fb.pixel c r = true ↔
        ¬ (s.fb.pixel c r = true ↔ covers (s.readBytes s.i.toNat n.toNat) (s.getV x) (s.getV y) c r)) ∧
      Bit (t.getV 15) (∃ c r, s.fb.pixel c r = true ∧
        covers (s.readBytes s.i.toNat n.toNat) (s.getV x) (s.getV y) c r) ∧
      (∀ r, r ≠ 15 → t.getV r = s.getV r) ∧ (∀ a, t.readByte a = s.readByte a) ∧ t = { s with v := t.v, fb := t.fb }) ∧
    (¬ inRange s.i.toNat n.toNat → exec (.drw x y n) s =
      .next { s with pc := s.pc - 2, fault := some (.outOfBoundsMemoryAccess (s.pc - 2) (max s.i.toNat 4096)) })

/-- R82, R84: drawing a sprite twice at one place restores the framebuffer. The second draw collides exactly when some pixel the sprite
covers was clear before the first, so on a clear screen exactly when the sprite has a set bit. R83's corner case says that last of every
screen; where every covered pixel is set R82 says otherwise, and the model follows R82 (log 26, DEDUCED). -/
def Obligations.DrawingTwiceRestoresTheScreen : Prop :=
  ∀ (rows : List Byte) (x0 y0 : Byte) (fb : FrameBuffer), rows.length ≤ 15 →
    let once := (blit rows x0 y0 fb).1
    (blit rows x0 y0 once).1 = fb ∧
    ((blit rows x0 y0 once).2 = true ↔ ∃ c r, covers rows x0 y0 c r ∧ fb.pixel c r = false) ∧
    (fb = FrameBuffer.clear → ((blit rows x0 y0 once).2 = true ↔ ∃ b ∈ rows, b ≠ 0))

/-! ## Timers and keys -/

/-- R85, R86: the key skips; no key equals no register value; the model's reading counter moves on (log 5). -/
def Obligations.KeySkipsCompareTheSnapshot : Prop :=
  ∀ (s : State) (x : Reg),
    (∃ t, exec (.skp x) s = .next t ∧ t = { s with pc := t.pc, keyReads := s.keyReads + 1 } ∧
      ((∃ k, s.keySnapshot = some k ∧ k.toNat = (s.getV x).toNat) → t.pc = s.pc + 2) ∧
      ((¬ ∃ k, s.keySnapshot = some k ∧ k.toNat = (s.getV x).toNat) → t.pc = s.pc)) ∧
    (∃ t, exec (.sknp x) s = .next t ∧ t = { s with pc := t.pc, keyReads := s.keyReads + 1 } ∧
      ((∃ k, s.keySnapshot = some k ∧ k.toNat = (s.getV x).toNat) → t.pc = s.pc) ∧
      ((¬ ∃ k, s.keySnapshot = some k ∧ k.toNat = (s.getV x).toNat) → t.pc = s.pc + 2))

/-- R88: Fx0A with a key completes with the key in Vx; with none the step is Blocked, PC back at the Fx0A and nothing else changed but the
model's reading counter (log 5). -/
def Obligations.KeyWaitBlocksUntilAKey : Prop :=
  (∀ (s : State) (x : Reg) (k : Key), s.keySnapshot = some k → ∃ t, exec (.ldVxK x) s = .next t ∧
    (t.getV x).toNat = k.toNat ∧ (∀ r, r ≠ x → t.getV r = s.getV r) ∧
    t = { s with v := t.v, keyReads := s.keyReads + 1 }) ∧
  ∀ (s : State) (x : Reg), Executes s (.ldVxK x) → s.keySnapshot = none →
    step s = .next { s with keyReads := s.keyReads + 1 } ∧ stepReport s = some .blocked

/-- R87, R89, R90: the timer instructions move a byte and change nothing else; no request is made of the Audio sink. -/
def Obligations.TimerInstructionsMoveOneByte : Prop :=
  ∀ (s : State) (x : Reg),
    (∃ t, exec (.ldVxDt x) s = .next t ∧ t.getV x = s.dt ∧ RegFrame s t [x]) ∧
    exec (.ldDtVx x) s = .next { s with dt := s.getV x } ∧
    exec (.ldStVx x) s = .next { s with st := s.getV x }

/-- R99: while Fx0A is blocked ticks go on: a tick after a blocked step leaves the tick's state, and the core still blocks. -/
def Obligations.TicksGoOnWhileBlocked : Prop :=
  ∀ (s : State) (x : Reg), Executes s (.ldVxK x) → s.keyInput = .fixed none →
    ∃ t, runOps [.step, .tick60Hz] s = .next t ∧ t.dt.toNat = s.dt.toNat - 1 ∧ t.st.toNat = s.st.toNat - 1 ∧
      t.pc = s.pc ∧ t.v = s.v ∧ stepReport t = some .blocked

/-! ## Whole-machine rules -/

/-- R45: every instruction's meaning answers a next state in every state. Where 00EE, 2nnn, Dxyn, Fx33, Fx55 or Fx65 raises a fatal
fault that next state is the one with the record set, which is the model's choice (log 3, DESIGN CHOICE). What each instruction's own
effect is, and on which operands it has it, the statements per instruction say. -/
def Obligations.EveryInstructionAnswersANextState : Prop :=
  ∀ (i : Instr) (s : State), ∃ t, exec i s = .next t

/-- R8, R9: no instruction changes a general register that it does not name as its destination or set as its flag. -/
def Obligations.OnlyNamedRegistersChange : Prop :=
  ∀ (i : Instr) (s t : State) (r : Reg), exec i s = .next t → ¬ writesReg i r → t.getV r = s.getV r

/-- R9: each flag-setting instruction leaves 0 or 1 in VF on every execution that completes. -/
def Obligations.FlagInstructionsLeaveZeroOrOneInVf : Prop :=
  ∀ (i : Instr) (s t : State), s.fault = none → exec i s = .next t → t.fault = none →
    (match i with
      | .addReg _ _ | .subReg _ _ | .shr _ _ | .subnReg _ _ | .shl _ _ | .addI _ | .drw _ _ _ => True
      | _ => False) → t.getV 15 = 0 ∨ t.getV 15 = 1

/-- R26: no instruction but Fx33 and Fx55 changes a byte of memory, and these only in their range from I. -/
def Obligations.OnlyBcdAndStoreWriteMemory : Prop :=
  ∀ (i : Instr) (s t : State) (a : Nat), exec i s = .next t → t.readByte a ≠ s.readByte a →
    ((∃ x, i = .ldB x) ∨ ∃ x, i = .ldMemVx x) ∧
      ∃ n, rangeBytes i = some n ∧ s.i.toNat ≤ a ∧ a < s.i.toNat + n

/-- R26, R49: an instruction that accesses no range from I does the same whatever memory holds, so a skip does not look at the word it
passes over. -/
def Obligations.OnlyRangeInstructionsReadMemory : Prop :=
  ∀ (i : Instr) (s t : State) (m : Memory), rangeBytes i = none → exec i s = .next t →
    exec i { s with mem := m } = .next { t with mem := m }

/-- R10, R12, R13, R15: I is written only by Annn, Fx1E and Fx29, the stack by 2nnn, SP by 2nnn and 00EE, the framebuffer by 00E0 and
Dxyn. -/
def Obligations.EachSpecialRegisterHasItsWriters : Prop :=
  ∀ (i : Instr) (s t : State), exec i s = .next t →
    (t.i ≠ s.i → (∃ nnn, i = .ldI nnn) ∨ (∃ x, i = .addI x) ∨ ∃ x, i = .ldF x) ∧
    (t.stack ≠ s.stack → ∃ nnn, i = .call nnn) ∧
    (t.sp ≠ s.sp → (∃ nnn, i = .call nnn) ∨ i = .ret) ∧
    (t.fb ≠ s.fb → i = .cls ∨ ∃ x y n, i = .drw x y n)

/-- R16, R100: only the tick writes `toneOn`. That no operation writes the parameters is the model's: R3 makes them arguments of the
model, which the model holds as a field of State (log 1, DESIGN CHOICE). -/
def Obligations.OnlyTheTickWritesToneOn : Prop :=
  ∀ (op : HostOp) (s t : State), applyOp op s = .next t →
    t.params = s.params ∧ (t.toneOn ≠ s.toneOn → op = .tick60Hz)

/-- R121: only ticks, Fx15, Fx18, `reset()` and `load` change DT and ST. -/
def Obligations.OnlyTicksAndTimerWritesChangeTimers : Prop :=
  ∀ (op : HostOp) (s t : State), applyOp op s = .next t →
    (t.dt ≠ s.dt → op = .tick60Hz ∨ op = .reset ∨ (∃ image, op = .load image) ∨
      op = .step ∧ ∃ x, Executes s (.ldDtVx x)) ∧
    (t.st ≠ s.st → op = .tick60Hz ∨ op = .reset ∨ (∃ image, op = .load image) ∨
      op = .step ∧ ∃ x, Executes s (.ldStVx x))

/-- R121, the source's timer independence: any number of steps that execute no Fx15 and no Fx18 leaves both timers. -/
def Obligations.StepsAloneLeaveTheTimers : Prop :=
  ∀ (n : Nat) (s t : State), NoTimerWrite n s → Host.Core.run Sys2Proof.core n s = .next t → t.dt = s.dt ∧ t.st = s.st

/-- R103: nothing but Ex9E, ExA1 and Fx0A reads the key: with another key source the same instruction does the same. -/
def Obligations.OnlyKeyInstructionsReadTheKey : Prop :=
  ∀ (i : Instr) (s t : State) (k : KeyInput), ¬ readsKey i → exec i s = .next t →
    exec i { s with keyInput := k } = .next { t with keyInput := k }

/-- R24: with parameters within bounds the invariant holds in every newly constructed core and after a reset of any state, and every step
and every tick keeps it. -/
def Obligations.EveryStepAndTickKeepsTheInvariant : Prop :=
  (∀ p : Params, p.wellFormed = true → (State.constructed p).Inv) ∧
  (∀ s : State, s.params.wellFormed = true → s.resetCore.Inv) ∧
  ∀ s t : State, s.Inv → (step s = .next t ∨ tick60Hz s = .next t) → t.Inv

/-- R19, R24: the invariant holds at reset. -/
def Obligations.ResetStateMeetsTheInvariant : Prop := State.reset.Inv

/-- R24 for every reachable state, under every schedule of the host's operations (R98). -/
def Obligations.ReachableStatesMeetTheInvariant : Prop :=
  ∀ s : State, Reachable s → s.Inv
end

