-- ==== Sys2Proof/Laws/Decode.lean ====
section
/-! SUPPORT. The opcode table's masks as division and remainder, and the numbers the four formats encode (R41, R43). -/

namespace Sys2Proof

theorem and_shiftLeft (n m k : Nat) : n &&& (m <<< k) = ((n >>> k) &&& m) <<< k := by
  apply Nat.eq_of_testBit_eq
  intro i
  by_cases h : k ≤ i <;> simp [h]

theorem mask_F000 (n : Nat) : n &&& 0xF000 = n / 4096 % 16 * 4096 := by
  have h := and_shiftLeft n 15 12
  rw [Nat.and_two_pow_sub_one_eq_mod _ 4, Nat.shiftLeft_eq (_ % _), Nat.shiftRight_eq_div_pow] at h
  exact h

theorem mask_F00F (n : Nat) : n &&& 0xF00F = n / 4096 % 16 * 4096 + n % 16 := by
  have h1 : n &&& 0xF = n % 16 := Nat.and_two_pow_sub_one_eq_mod n 4
  have h2 : n &&& 0xF00F = (n &&& 0xF000) ||| (n &&& 0xF) := Nat.and_or_distrib_left n 0xF000 0xF
  rw [h2, mask_F000, h1, ← Nat.shiftLeft_eq _ 12, Nat.shiftLeft_add_eq_or_of_lt (by omega)]

theorem mask_F0FF (n : Nat) : n &&& 0xF0FF = n / 4096 % 16 * 4096 + n % 256 := by
  have h1 : n &&& 0xFF = n % 256 := Nat.and_two_pow_sub_one_eq_mod n 8
  have h2 : n &&& 0xF0FF = (n &&& 0xF000) ||| (n &&& 0xFF) := Nat.and_or_distrib_left n 0xF000 0xFF
  rw [h2, mask_F000, h1, ← Nat.shiftLeft_eq _ 12, Nat.shiftLeft_add_eq_or_of_lt (by omega)]

theorem encodeA_toNat (o : Nat) (nnn : Addr12) (h : o < 16) : (encodeA o nnn).toNat = o * 4096 + nnn.toNat := by
  have := nnn.isLt
  simp only [encodeA, BitVec.toNat_ofNat]; omega

theorem encodeXK_toNat (o : Nat) (x : Reg) (kk : Byte) (h : o < 16) :
    (encodeXK o x kk).toNat = o * 4096 + x.val * 256 + kk.toNat := by
  have := kk.isLt
  simp only [encodeXK, BitVec.toNat_ofNat]; omega

theorem encodeXY_toNat (o : Nat) (x y : Reg) (z : Nat) (h : o < 16) (hz : z < 16) :
    (encodeXY o x y z).toNat = o * 4096 + x.val * 256 + y.val * 16 + z := by
  simp only [encodeXY, BitVec.toNat_ofNat]; omega

theorem encodeX_toNat (o : Nat) (x : Reg) (sub : Nat) (h : o < 16) (hs : sub < 256) :
    (encodeX o x sub).toNat = o * 4096 + x.val * 256 + sub := by
  simp only [encodeX, BitVec.toNat_ofNat]; omega

/-- Every word of format A matches the row of its family. -/
theorem encodeA_matches (o : Nat) (nnn : Addr12) (h : o < 16) : (encodeA o nnn).toNat &&& 0xF000 = o * 4096 := by
  have := nnn.isLt
  rw [mask_F000, encodeA_toNat o nnn h]; omega

/-- Every word of format XK matches the row of its family. -/
theorem encodeXK_matches (o : Nat) (x : Reg) (kk : Byte) (h : o < 16) :
    (encodeXK o x kk).toNat &&& 0xF000 = o * 4096 := by
  have := kk.isLt
  rw [mask_F000, encodeXK_toNat o x kk h]; omega

/-- Every word of format XYN matches the row of its family. -/
theorem encodeXYN_matches (o : Nat) (x y : Reg) (z : Nat) (h : o < 16) (hz : z < 16) :
    (encodeXY o x y z).toNat &&& 0xF000 = o * 4096 := by
  rw [mask_F000, encodeXY_toNat o x y z h hz]; omega

/-- Every word of format XY matches the row of its family and sub-opcode. -/
theorem encodeXY_matches (o : Nat) (x y : Reg) (z : Nat) (h : o < 16) (hz : z < 16) :
    (encodeXY o x y z).toNat &&& 0xF00F = o * 4096 + z := by
  rw [mask_F00F, encodeXY_toNat o x y z h hz]; omega

/-- Every word of format X matches the row of its family and sub-opcode byte. -/
theorem encodeX_matches (o : Nat) (x : Reg) (sub : Nat) (h : o < 16) (hs : sub < 256) :
    (encodeX o x sub).toNat &&& 0xF0FF = o * 4096 + sub := by
  rw [mask_F0FF, encodeX_toNat o x sub h hs]; omega

end Sys2Proof
end

