-- ==== Sys2Proof/Laws/Memory.lean ====
section
/-! SUPPORT. The laws of memory (R27, R37): a read after a write to the same address gives the value written, a write leaves every
other address alone, every write keeps the canonical form, and two memories in that form that read alike are equal. -/

namespace Sys2Proof.Machine

variable {p : Params} {m : Memory}

/-- An address that no entry lists reads as its reset value. -/
theorem Memory.read_unlisted {a : Nat} (h : ∀ c ∈ m, c.1 ≠ a) : m.read p a = resetByte p a := by
  induction m with
  | nil => rfl
  | cons c rest ih =>
    have hc : a ≠ c.1 := fun e => h c (by simp) e.symm
    simp only [Memory.read, if_neg hc]
    exact ih fun d hd => h d (by simp [hd])

theorem Memory.read_insert_same (a : Nat) (b : Byte) : (m.insert a b).read p a = b := by
  induction m with
  | nil => simp [Memory.insert, Memory.read]
  | cons c rest ih =>
    simp only [Memory.insert]
    split
    · simp [Memory.read]
    · split
      · simp [Memory.read]
      · next h => simp [Memory.read, h, ih]

theorem Memory.read_insert_other {a a' : Nat} (b : Byte) (h : a' ≠ a) : (m.insert a b).read p a' = m.read p a' := by
  induction m with
  | nil => simp [Memory.insert, Memory.read, h]
  | cons c rest ih =>
    simp only [Memory.insert]
    split
    · simp [Memory.read, h]
    · split
      · next e => subst e; simp [Memory.read, h]
      · simp [Memory.read, ih]

theorem Memory.read_erase_other {a a' : Nat} (h : a' ≠ a) : (m.erase a).read p a' = m.read p a' := by
  induction m with
  | nil => rfl
  | cons c rest ih =>
    simp only [Memory.erase]
    split
    · next e => subst e; simp [Memory.read, h]
    · simp [Memory.read, ih]

theorem Memory.mem_of_mem_erase {a : Nat} {c : Host.Cell} (h : c ∈ m.erase a) : c ∈ m := by
  induction m with
  | nil => simp [Memory.erase] at h
  | cons d rest ih =>
    simp only [Memory.erase] at h
    split at h
    · simp [h]
    · rcases List.mem_cons.mp h with rfl | h
      · simp
      · simp [ih h]

theorem Memory.mem_of_mem_insert {a : Nat} {b : Byte} {c : Host.Cell} (h : c ∈ m.insert a b) : c = (a, b) ∨ c ∈ m := by
  induction m with
  | nil => simpa [Memory.insert] using h
  | cons d rest ih =>
    simp only [Memory.insert] at h
    split at h
    · simpa using h
    · split at h
      · rcases List.mem_cons.mp h with h | h <;> simp [h]
      · rcases List.mem_cons.mp h with rfl | h
        · simp
        · rcases ih h with h | h <;> simp [h]

/-- In the canonical form, erasing the entry of `a` makes `a` read as its reset value. -/
theorem Memory.read_erase_same (a : Nat) (h : m.Pairwise fun c d => c.1 < d.1) :
    (m.erase a).read p a = resetByte p a := by
  induction m with
  | nil => rfl
  | cons c rest ih =>
    rw [List.pairwise_cons] at h
    simp only [Memory.erase]
    split
    · next e => exact Memory.read_unlisted fun d hd => by have := h.1 d hd; omega
    · next e => simp only [Memory.read, if_neg e]; exact ih h.2

theorem Memory.pairwise_erase (a : Nat) (h : m.Pairwise fun c d => c.1 < d.1) :
    (m.erase a).Pairwise fun c d => c.1 < d.1 := by
  induction m with
  | nil => exact h
  | cons c rest ih =>
    rw [List.pairwise_cons] at h
    simp only [Memory.erase]
    split
    · exact h.2
    · exact List.pairwise_cons.mpr ⟨fun d hd => h.1 d (Memory.mem_of_mem_erase hd), ih h.2⟩

theorem Memory.pairwise_insert (a : Nat) (b : Byte) (h : m.Pairwise fun c d => c.1 < d.1) :
    (m.insert a b).Pairwise fun c d => c.1 < d.1 := by
  induction m with
  | nil => simp [Memory.insert]
  | cons c rest ih =>
    rw [List.pairwise_cons] at h
    simp only [Memory.insert]
    split
    · next hlt =>
      refine List.pairwise_cons.mpr ⟨fun d hd => ?_, List.pairwise_cons.mpr h⟩
      rcases List.mem_cons.mp hd with rfl | hd
      · exact hlt
      · exact lt_trans hlt (h.1 d hd)
    · next hge =>
      split
      · next e => subst e; exact List.pairwise_cons.mpr ⟨fun d hd => h.1 d hd, h.2⟩
      · next hne =>
        refine List.pairwise_cons.mpr ⟨fun d hd => ?_, ih h.2⟩
        rcases Memory.mem_of_mem_insert hd with rfl | hd
        · show c.1 < a; omega
        · exact h.1 d hd

/-- R37: a read after a write to the same address gives the byte written. -/
theorem Memory.read_write_same (a : Nat) (b : Byte) (h : m.wf p) : (m.write p a b).read p a = b := by
  unfold Memory.write
  split
  · next e => rw [Memory.read_erase_same a h.1, e]
  · exact Memory.read_insert_same a b

/-- R34: a write has no effect but on its byte. -/
theorem Memory.read_write_other {a a' : Nat} (b : Byte) (h : a' ≠ a) : (m.write p a b).read p a' = m.read p a' := by
  unfold Memory.write
  split
  · exact Memory.read_erase_other h
  · exact Memory.read_insert_other b h

/-- A write inside the address space keeps the canonical form. -/
theorem Memory.wf_write (a : Nat) (b : Byte) (ha : a < 4096) (h : m.wf p) : (m.write p a b).wf p := by
  unfold Memory.write
  split
  · exact ⟨Memory.pairwise_erase a h.1, fun c hc => h.2 c (Memory.mem_of_mem_erase hc)⟩
  · next hb =>
    refine ⟨Memory.pairwise_insert a b h.1, fun c hc => ?_⟩
    rcases Memory.mem_of_mem_insert hc with rfl | hc
    · exact ⟨ha, hb⟩
    · exact h.2 c hc

/-- Consecutive writes inside the address space keep the canonical form. -/
theorem Memory.wf_writeBytes (bs : List Byte) (a : Nat) (ha : bs = [] ∨ a + bs.length ≤ 4096) (h : m.wf p) :
    (m.writeBytes p a bs).wf p := by
  induction bs generalizing m a with
  | nil => exact h
  | cons b rest ih =>
    have hl : a + (rest.length + 1) ≤ 4096 := by simpa using ha
    exact ih (a + 1) (Or.inr (by omega)) (Memory.wf_write a b (by omega) h)

/-- Consecutive writes leave every address outside their range alone. -/
theorem Memory.read_writeBytes_outside (bs : List Byte) {a a' : Nat} (h : a' < a ∨ a + bs.length ≤ a') :
    (m.writeBytes p a bs).read p a' = m.read p a' := by
  induction bs generalizing m a with
  | nil => rfl
  | cons b rest ih =>
    have hl : a' < a ∨ a + (rest.length + 1) ≤ a' := by simpa using h
    rw [Memory.writeBytes, ih (by omega), Memory.read_write_other b (by omega)]

/-- Consecutive writes: the j-th byte is read back at the j-th address. -/
theorem Memory.read_writeBytes_inside (bs : List Byte) (a j : Nat) (hj : j < bs.length) (ha : a + bs.length ≤ 4096)
    (h : m.wf p) : (m.writeBytes p a bs).read p (a + j) = bs[j] := by
  induction bs generalizing m a j with
  | nil => simp at hj
  | cons b rest ih =>
    have hl : a + (rest.length + 1) ≤ 4096 := by simpa using ha
    have hw := Memory.wf_write a b (by omega) h
    cases j with
    | zero => simp [Memory.writeBytes, Memory.read_writeBytes_outside rest (Or.inl (Nat.lt_succ_self a)),
        Memory.read_write_same a b h]
    | succ j =>
      have := ih (a + 1) j (by simpa using hj) (by omega) hw
      simpa [Memory.writeBytes, Nat.add_assoc, Nat.add_comm 1 j] using this

/-- Two memories in canonical form that read alike are equal. -/
theorem Memory.ext_of_wf {m' : Memory} (h : m.wf p) (h' : m'.wf p) (hr : ∀ a, m.read p a = m'.read p a) : m = m' := by
  have differs : ∀ {m : Memory} (c : Host.Cell) (rest : Memory), m = c :: rest → m.wf p →
      m.read p c.1 ≠ resetByte p c.1 := by
    rintro _ c rest rfl hw
    simpa [Memory.read] using (hw.2 c (by simp)).2
  have skips : ∀ (c : Host.Cell) (rest : Memory), Memory.wf p (c :: rest) → ∀ a, a < c.1 →
      Memory.read p (c :: rest) a = resetByte p a := by
    intro c rest hw a ha
    refine Memory.read_unlisted fun d hd => ?_
    rcases List.mem_cons.mp hd with rfl | hd
    · omega
    · have := (List.pairwise_cons.mp hw.1).1 d hd; omega
  induction m generalizing m' with
  | nil =>
    cases m' with
    | nil => rfl
    | cons c rest => exact absurd (hr c.1).symm (differs c rest rfl h')
  | cons c rest ih =>
    cases m' with
    | nil => exact absurd (hr c.1) (differs c rest rfl h)
    | cons d rest' =>
      have hcd : c.1 = d.1 := by
        rcases Nat.lt_trichotomy c.1 d.1 with hlt | heq | hgt
        · exact absurd ((hr c.1).trans (skips d rest' h' _ hlt)) (differs c rest rfl h)
        · exact heq
        · exact absurd ((hr d.1).symm.trans (skips c rest h _ hgt)) (differs d rest' rfl h')
      have hv : c.2 = d.2 := by simpa [Memory.read, hcd] using hr c.1
      have hc : c = d := Prod.ext hcd hv
      subst hc
      have hrest : Memory.wf p rest := ⟨(List.pairwise_cons.mp h.1).2, fun e he => h.2 e (by simp [he])⟩
      have hrest' : Memory.wf p rest' := ⟨(List.pairwise_cons.mp h'.1).2, fun e he => h'.2 e (by simp [he])⟩
      congr 1
      refine ih hrest hrest' fun a => ?_
      by_cases ha : a = c.1
      · subst ha
        rw [Memory.read_unlisted fun e he => (Nat.ne_of_lt ((List.pairwise_cons.mp h.1).1 e he)).symm,
          Memory.read_unlisted fun e he => (Nat.ne_of_lt ((List.pairwise_cons.mp h'.1).1 e he)).symm]
      · simpa [Memory.read, ha] using hr a

/-! ## The same at the level of the state -/

variable {s : State}

/-- `writeBytes` leaves every address outside its range alone. -/
theorem State.readByte_writeBytes_outside (bs : List Byte) {a a' : Nat} (h : a' < a ∨ a + bs.length ≤ a') :
    (s.writeBytes a bs).readByte a' = s.readByte a' :=
  Memory.read_writeBytes_outside bs h

/-- `writeBytes` is read back, byte by byte. -/
theorem State.readByte_writeBytes_inside (bs : List Byte) (a j : Nat) (hj : j < bs.length) (ha : a + bs.length ≤ 4096)
    (h : s.mem.wf s.params) : (s.writeBytes a bs).readByte (a + j) = bs[j] :=
  Memory.read_writeBytes_inside bs a j hj ha h

/-- A newly constructed core's memory is in canonical form. -/
theorem State.constructed_mem_wf (q : Params) : (State.constructed q).mem.wf q := ⟨List.Pairwise.nil, by simp [State.constructed]⟩

/-- The reset state's memory is in canonical form. -/
theorem State.reset_mem_wf : State.reset.mem.wf State.reset.params := State.constructed_mem_wf defaultParams

end Sys2Proof.Machine
end

