-- ==== Sys2Proof/Laws/State.lean ====
section
/-! SUPPORT. What each named update does to each field of the state: one lemma a field an update, so that no later proof unfolds a
record update. Then the same for the updates that branch. -/

namespace Sys2Proof.Machine

variable (s : State)

/-! ### `setV` -/

@[simp] theorem State.setV_params (x : Reg) (b : Byte) : (s.setV x b).params = s.params := rfl
@[simp] theorem State.setV_mem (x : Reg) (b : Byte) : (s.setV x b).mem = s.mem := rfl
@[simp] theorem State.setV_v (x : Reg) (b : Byte) : (s.setV x b).v = s.v.set x b := rfl
@[simp] theorem State.setV_i (x : Reg) (b : Byte) : (s.setV x b).i = s.i := rfl
@[simp] theorem State.setV_pc (x : Reg) (b : Byte) : (s.setV x b).pc = s.pc := rfl
@[simp] theorem State.setV_stack (x : Reg) (b : Byte) : (s.setV x b).stack = s.stack := rfl
@[simp] theorem State.setV_sp (x : Reg) (b : Byte) : (s.setV x b).sp = s.sp := rfl
@[simp] theorem State.setV_dt (x : Reg) (b : Byte) : (s.setV x b).dt = s.dt := rfl
@[simp] theorem State.setV_st (x : Reg) (b : Byte) : (s.setV x b).st = s.st := rfl
@[simp] theorem State.setV_fb (x : Reg) (b : Byte) : (s.setV x b).fb = s.fb := rfl
@[simp] theorem State.setV_toneOn (x : Reg) (b : Byte) : (s.setV x b).toneOn = s.toneOn := rfl
@[simp] theorem State.setV_fault (x : Reg) (b : Byte) : (s.setV x b).fault = s.fault := rfl
@[simp] theorem State.setV_keyInput (x : Reg) (b : Byte) : (s.setV x b).keyInput = s.keyInput := rfl
@[simp] theorem State.setV_keyReads (x : Reg) (b : Byte) : (s.setV x b).keyReads = s.keyReads := rfl
@[simp] theorem State.setV_randomDraws (x : Reg) (b : Byte) : (s.setV x b).randomDraws = s.randomDraws := rfl

/-! ### `setVThenFlag` -/

@[simp] theorem State.setVThenFlag_params (x : Reg) (r f : Byte) : (s.setVThenFlag x r f).params = s.params := rfl
@[simp] theorem State.setVThenFlag_mem (x : Reg) (r f : Byte) : (s.setVThenFlag x r f).mem = s.mem := rfl
@[simp] theorem State.setVThenFlag_v (x : Reg) (r f : Byte) : (s.setVThenFlag x r f).v = (s.v.set x r).set Reg.vf f := rfl
@[simp] theorem State.setVThenFlag_i (x : Reg) (r f : Byte) : (s.setVThenFlag x r f).i = s.i := rfl
@[simp] theorem State.setVThenFlag_pc (x : Reg) (r f : Byte) : (s.setVThenFlag x r f).pc = s.pc := rfl
@[simp] theorem State.setVThenFlag_stack (x : Reg) (r f : Byte) : (s.setVThenFlag x r f).stack = s.stack := rfl
@[simp] theorem State.setVThenFlag_sp (x : Reg) (r f : Byte) : (s.setVThenFlag x r f).sp = s.sp := rfl
@[simp] theorem State.setVThenFlag_dt (x : Reg) (r f : Byte) : (s.setVThenFlag x r f).dt = s.dt := rfl
@[simp] theorem State.setVThenFlag_st (x : Reg) (r f : Byte) : (s.setVThenFlag x r f).st = s.st := rfl
@[simp] theorem State.setVThenFlag_fb (x : Reg) (r f : Byte) : (s.setVThenFlag x r f).fb = s.fb := rfl
@[simp] theorem State.setVThenFlag_toneOn (x : Reg) (r f : Byte) : (s.setVThenFlag x r f).toneOn = s.toneOn := rfl
@[simp] theorem State.setVThenFlag_fault (x : Reg) (r f : Byte) : (s.setVThenFlag x r f).fault = s.fault := rfl
@[simp] theorem State.setVThenFlag_keyInput (x : Reg) (r f : Byte) : (s.setVThenFlag x r f).keyInput = s.keyInput := rfl
@[simp] theorem State.setVThenFlag_keyReads (x : Reg) (r f : Byte) : (s.setVThenFlag x r f).keyReads = s.keyReads := rfl
@[simp] theorem State.setVThenFlag_randomDraws (x : Reg) (r f : Byte) : (s.setVThenFlag x r f).randomDraws = s.randomDraws := rfl

/-! ### `setI` -/

@[simp] theorem State.setI_params (a : Word) : (s.setI a).params = s.params := rfl
@[simp] theorem State.setI_mem (a : Word) : (s.setI a).mem = s.mem := rfl
@[simp] theorem State.setI_v (a : Word) : (s.setI a).v = s.v := rfl
@[simp] theorem State.setI_i (a : Word) : (s.setI a).i = a := rfl
@[simp] theorem State.setI_pc (a : Word) : (s.setI a).pc = s.pc := rfl
@[simp] theorem State.setI_stack (a : Word) : (s.setI a).stack = s.stack := rfl
@[simp] theorem State.setI_sp (a : Word) : (s.setI a).sp = s.sp := rfl
@[simp] theorem State.setI_dt (a : Word) : (s.setI a).dt = s.dt := rfl
@[simp] theorem State.setI_st (a : Word) : (s.setI a).st = s.st := rfl
@[simp] theorem State.setI_fb (a : Word) : (s.setI a).fb = s.fb := rfl
@[simp] theorem State.setI_toneOn (a : Word) : (s.setI a).toneOn = s.toneOn := rfl
@[simp] theorem State.setI_fault (a : Word) : (s.setI a).fault = s.fault := rfl
@[simp] theorem State.setI_keyInput (a : Word) : (s.setI a).keyInput = s.keyInput := rfl
@[simp] theorem State.setI_keyReads (a : Word) : (s.setI a).keyReads = s.keyReads := rfl
@[simp] theorem State.setI_randomDraws (a : Word) : (s.setI a).randomDraws = s.randomDraws := rfl

/-! ### `setPc` -/

@[simp] theorem State.setPc_params (a : Word) : (s.setPc a).params = s.params := rfl
@[simp] theorem State.setPc_mem (a : Word) : (s.setPc a).mem = s.mem := rfl
@[simp] theorem State.setPc_v (a : Word) : (s.setPc a).v = s.v := rfl
@[simp] theorem State.setPc_i (a : Word) : (s.setPc a).i = s.i := rfl
@[simp] theorem State.setPc_pc (a : Word) : (s.setPc a).pc = a := rfl
@[simp] theorem State.setPc_stack (a : Word) : (s.setPc a).stack = s.stack := rfl
@[simp] theorem State.setPc_sp (a : Word) : (s.setPc a).sp = s.sp := rfl
@[simp] theorem State.setPc_dt (a : Word) : (s.setPc a).dt = s.dt := rfl
@[simp] theorem State.setPc_st (a : Word) : (s.setPc a).st = s.st := rfl
@[simp] theorem State.setPc_fb (a : Word) : (s.setPc a).fb = s.fb := rfl
@[simp] theorem State.setPc_toneOn (a : Word) : (s.setPc a).toneOn = s.toneOn := rfl
@[simp] theorem State.setPc_fault (a : Word) : (s.setPc a).fault = s.fault := rfl
@[simp] theorem State.setPc_keyInput (a : Word) : (s.setPc a).keyInput = s.keyInput := rfl
@[simp] theorem State.setPc_keyReads (a : Word) : (s.setPc a).keyReads = s.keyReads := rfl
@[simp] theorem State.setPc_randomDraws (a : Word) : (s.setPc a).randomDraws = s.randomDraws := rfl

/-! ### `setDt` -/

@[simp] theorem State.setDt_params (b : Byte) : (s.setDt b).params = s.params := rfl
@[simp] theorem State.setDt_mem (b : Byte) : (s.setDt b).mem = s.mem := rfl
@[simp] theorem State.setDt_v (b : Byte) : (s.setDt b).v = s.v := rfl
@[simp] theorem State.setDt_i (b : Byte) : (s.setDt b).i = s.i := rfl
@[simp] theorem State.setDt_pc (b : Byte) : (s.setDt b).pc = s.pc := rfl
@[simp] theorem State.setDt_stack (b : Byte) : (s.setDt b).stack = s.stack := rfl
@[simp] theorem State.setDt_sp (b : Byte) : (s.setDt b).sp = s.sp := rfl
@[simp] theorem State.setDt_dt (b : Byte) : (s.setDt b).dt = b := rfl
@[simp] theorem State.setDt_st (b : Byte) : (s.setDt b).st = s.st := rfl
@[simp] theorem State.setDt_fb (b : Byte) : (s.setDt b).fb = s.fb := rfl
@[simp] theorem State.setDt_toneOn (b : Byte) : (s.setDt b).toneOn = s.toneOn := rfl
@[simp] theorem State.setDt_fault (b : Byte) : (s.setDt b).fault = s.fault := rfl
@[simp] theorem State.setDt_keyInput (b : Byte) : (s.setDt b).keyInput = s.keyInput := rfl
@[simp] theorem State.setDt_keyReads (b : Byte) : (s.setDt b).keyReads = s.keyReads := rfl
@[simp] theorem State.setDt_randomDraws (b : Byte) : (s.setDt b).randomDraws = s.randomDraws := rfl

/-! ### `setSt` -/

@[simp] theorem State.setSt_params (b : Byte) : (s.setSt b).params = s.params := rfl
@[simp] theorem State.setSt_mem (b : Byte) : (s.setSt b).mem = s.mem := rfl
@[simp] theorem State.setSt_v (b : Byte) : (s.setSt b).v = s.v := rfl
@[simp] theorem State.setSt_i (b : Byte) : (s.setSt b).i = s.i := rfl
@[simp] theorem State.setSt_pc (b : Byte) : (s.setSt b).pc = s.pc := rfl
@[simp] theorem State.setSt_stack (b : Byte) : (s.setSt b).stack = s.stack := rfl
@[simp] theorem State.setSt_sp (b : Byte) : (s.setSt b).sp = s.sp := rfl
@[simp] theorem State.setSt_dt (b : Byte) : (s.setSt b).dt = s.dt := rfl
@[simp] theorem State.setSt_st (b : Byte) : (s.setSt b).st = b := rfl
@[simp] theorem State.setSt_fb (b : Byte) : (s.setSt b).fb = s.fb := rfl
@[simp] theorem State.setSt_toneOn (b : Byte) : (s.setSt b).toneOn = s.toneOn := rfl
@[simp] theorem State.setSt_fault (b : Byte) : (s.setSt b).fault = s.fault := rfl
@[simp] theorem State.setSt_keyInput (b : Byte) : (s.setSt b).keyInput = s.keyInput := rfl
@[simp] theorem State.setSt_keyReads (b : Byte) : (s.setSt b).keyReads = s.keyReads := rfl
@[simp] theorem State.setSt_randomDraws (b : Byte) : (s.setSt b).randomDraws = s.randomDraws := rfl

/-! ### `setFb` -/

@[simp] theorem State.setFb_params (fb : FrameBuffer) : (s.setFb fb).params = s.params := rfl
@[simp] theorem State.setFb_mem (fb : FrameBuffer) : (s.setFb fb).mem = s.mem := rfl
@[simp] theorem State.setFb_v (fb : FrameBuffer) : (s.setFb fb).v = s.v := rfl
@[simp] theorem State.setFb_i (fb : FrameBuffer) : (s.setFb fb).i = s.i := rfl
@[simp] theorem State.setFb_pc (fb : FrameBuffer) : (s.setFb fb).pc = s.pc := rfl
@[simp] theorem State.setFb_stack (fb : FrameBuffer) : (s.setFb fb).stack = s.stack := rfl
@[simp] theorem State.setFb_sp (fb : FrameBuffer) : (s.setFb fb).sp = s.sp := rfl
@[simp] theorem State.setFb_dt (fb : FrameBuffer) : (s.setFb fb).dt = s.dt := rfl
@[simp] theorem State.setFb_st (fb : FrameBuffer) : (s.setFb fb).st = s.st := rfl
@[simp] theorem State.setFb_fb (fb : FrameBuffer) : (s.setFb fb).fb = fb := rfl
@[simp] theorem State.setFb_toneOn (fb : FrameBuffer) : (s.setFb fb).toneOn = s.toneOn := rfl
@[simp] theorem State.setFb_fault (fb : FrameBuffer) : (s.setFb fb).fault = s.fault := rfl
@[simp] theorem State.setFb_keyInput (fb : FrameBuffer) : (s.setFb fb).keyInput = s.keyInput := rfl
@[simp] theorem State.setFb_keyReads (fb : FrameBuffer) : (s.setFb fb).keyReads = s.keyReads := rfl
@[simp] theorem State.setFb_randomDraws (fb : FrameBuffer) : (s.setFb fb).randomDraws = s.randomDraws := rfl

/-! ### `push` -/

@[simp] theorem State.push_params (a : Word) : (s.push a).params = s.params := rfl
@[simp] theorem State.push_mem (a : Word) : (s.push a).mem = s.mem := rfl
@[simp] theorem State.push_v (a : Word) : (s.push a).v = s.v := rfl
@[simp] theorem State.push_i (a : Word) : (s.push a).i = s.i := rfl
@[simp] theorem State.push_pc (a : Word) : (s.push a).pc = s.pc := rfl
@[simp] theorem State.push_stack (a : Word) : (s.push a).stack = s.stack.set s.sp a := rfl
@[simp] theorem State.push_sp (a : Word) : (s.push a).sp = s.sp + 1 := rfl
@[simp] theorem State.push_dt (a : Word) : (s.push a).dt = s.dt := rfl
@[simp] theorem State.push_st (a : Word) : (s.push a).st = s.st := rfl
@[simp] theorem State.push_fb (a : Word) : (s.push a).fb = s.fb := rfl
@[simp] theorem State.push_toneOn (a : Word) : (s.push a).toneOn = s.toneOn := rfl
@[simp] theorem State.push_fault (a : Word) : (s.push a).fault = s.fault := rfl
@[simp] theorem State.push_keyInput (a : Word) : (s.push a).keyInput = s.keyInput := rfl
@[simp] theorem State.push_keyReads (a : Word) : (s.push a).keyReads = s.keyReads := rfl
@[simp] theorem State.push_randomDraws (a : Word) : (s.push a).randomDraws = s.randomDraws := rfl

/-! ### `popToPc` -/

@[simp] theorem State.popToPc_params : (s.popToPc).params = s.params := rfl
@[simp] theorem State.popToPc_mem : (s.popToPc).mem = s.mem := rfl
@[simp] theorem State.popToPc_v : (s.popToPc).v = s.v := rfl
@[simp] theorem State.popToPc_i : (s.popToPc).i = s.i := rfl
@[simp] theorem State.popToPc_pc : (s.popToPc).pc = s.stackEntry (s.sp - 1) := rfl
@[simp] theorem State.popToPc_stack : (s.popToPc).stack = s.stack := rfl
@[simp] theorem State.popToPc_sp : (s.popToPc).sp = s.sp - 1 := rfl
@[simp] theorem State.popToPc_dt : (s.popToPc).dt = s.dt := rfl
@[simp] theorem State.popToPc_st : (s.popToPc).st = s.st := rfl
@[simp] theorem State.popToPc_fb : (s.popToPc).fb = s.fb := rfl
@[simp] theorem State.popToPc_toneOn : (s.popToPc).toneOn = s.toneOn := rfl
@[simp] theorem State.popToPc_fault : (s.popToPc).fault = s.fault := rfl
@[simp] theorem State.popToPc_keyInput : (s.popToPc).keyInput = s.keyInput := rfl
@[simp] theorem State.popToPc_keyReads : (s.popToPc).keyReads = s.keyReads := rfl
@[simp] theorem State.popToPc_randomDraws : (s.popToPc).randomDraws = s.randomDraws := rfl

/-! ### `writeBytes` -/

@[simp] theorem State.writeBytes_params (a : Nat) (bs : List Byte) : (s.writeBytes a bs).params = s.params := rfl
@[simp] theorem State.writeBytes_mem (a : Nat) (bs : List Byte) : (s.writeBytes a bs).mem = s.mem.writeBytes s.params a bs := rfl
@[simp] theorem State.writeBytes_v (a : Nat) (bs : List Byte) : (s.writeBytes a bs).v = s.v := rfl
@[simp] theorem State.writeBytes_i (a : Nat) (bs : List Byte) : (s.writeBytes a bs).i = s.i := rfl
@[simp] theorem State.writeBytes_pc (a : Nat) (bs : List Byte) : (s.writeBytes a bs).pc = s.pc := rfl
@[simp] theorem State.writeBytes_stack (a : Nat) (bs : List Byte) : (s.writeBytes a bs).stack = s.stack := rfl
@[simp] theorem State.writeBytes_sp (a : Nat) (bs : List Byte) : (s.writeBytes a bs).sp = s.sp := rfl
@[simp] theorem State.writeBytes_dt (a : Nat) (bs : List Byte) : (s.writeBytes a bs).dt = s.dt := rfl
@[simp] theorem State.writeBytes_st (a : Nat) (bs : List Byte) : (s.writeBytes a bs).st = s.st := rfl
@[simp] theorem State.writeBytes_fb (a : Nat) (bs : List Byte) : (s.writeBytes a bs).fb = s.fb := rfl
@[simp] theorem State.writeBytes_toneOn (a : Nat) (bs : List Byte) : (s.writeBytes a bs).toneOn = s.toneOn := rfl
@[simp] theorem State.writeBytes_fault (a : Nat) (bs : List Byte) : (s.writeBytes a bs).fault = s.fault := rfl
@[simp] theorem State.writeBytes_keyInput (a : Nat) (bs : List Byte) : (s.writeBytes a bs).keyInput = s.keyInput := rfl
@[simp] theorem State.writeBytes_keyReads (a : Nat) (bs : List Byte) : (s.writeBytes a bs).keyReads = s.keyReads := rfl
@[simp] theorem State.writeBytes_randomDraws (a : Nat) (bs : List Byte) : (s.writeBytes a bs).randomDraws = s.randomDraws := rfl

/-! ### `loadRegs` -/

@[simp] theorem State.loadRegs_params (x : Reg) (a : Nat) : (s.loadRegs x a).params = s.params := by simp only [State.loadRegs]
@[simp] theorem State.loadRegs_mem (x : Reg) (a : Nat) : (s.loadRegs x a).mem = s.mem := by simp only [State.loadRegs]
@[simp] theorem State.loadRegs_v (x : Reg) (a : Nat) : (s.loadRegs x a).v = Vector.ofFn fun j => if j ≤ x then s.readByte (a + j.val) else s.getV j := by simp only [State.loadRegs]
@[simp] theorem State.loadRegs_i (x : Reg) (a : Nat) : (s.loadRegs x a).i = s.i := by simp only [State.loadRegs]
@[simp] theorem State.loadRegs_pc (x : Reg) (a : Nat) : (s.loadRegs x a).pc = s.pc := by simp only [State.loadRegs]
@[simp] theorem State.loadRegs_stack (x : Reg) (a : Nat) : (s.loadRegs x a).stack = s.stack := by simp only [State.loadRegs]
@[simp] theorem State.loadRegs_sp (x : Reg) (a : Nat) : (s.loadRegs x a).sp = s.sp := by simp only [State.loadRegs]
@[simp] theorem State.loadRegs_dt (x : Reg) (a : Nat) : (s.loadRegs x a).dt = s.dt := by simp only [State.loadRegs]
@[simp] theorem State.loadRegs_st (x : Reg) (a : Nat) : (s.loadRegs x a).st = s.st := by simp only [State.loadRegs]
@[simp] theorem State.loadRegs_fb (x : Reg) (a : Nat) : (s.loadRegs x a).fb = s.fb := by simp only [State.loadRegs]
@[simp] theorem State.loadRegs_toneOn (x : Reg) (a : Nat) : (s.loadRegs x a).toneOn = s.toneOn := by simp only [State.loadRegs]
@[simp] theorem State.loadRegs_fault (x : Reg) (a : Nat) : (s.loadRegs x a).fault = s.fault := by simp only [State.loadRegs]
@[simp] theorem State.loadRegs_keyInput (x : Reg) (a : Nat) : (s.loadRegs x a).keyInput = s.keyInput := by simp only [State.loadRegs]
@[simp] theorem State.loadRegs_keyReads (x : Reg) (a : Nat) : (s.loadRegs x a).keyReads = s.keyReads := by simp only [State.loadRegs]
@[simp] theorem State.loadRegs_randomDraws (x : Reg) (a : Nat) : (s.loadRegs x a).randomDraws = s.randomDraws := by simp only [State.loadRegs]

/-! ### `noteKeyRead` -/

@[simp] theorem State.noteKeyRead_params : (s.noteKeyRead).params = s.params := rfl
@[simp] theorem State.noteKeyRead_mem : (s.noteKeyRead).mem = s.mem := rfl
@[simp] theorem State.noteKeyRead_v : (s.noteKeyRead).v = s.v := rfl
@[simp] theorem State.noteKeyRead_i : (s.noteKeyRead).i = s.i := rfl
@[simp] theorem State.noteKeyRead_pc : (s.noteKeyRead).pc = s.pc := rfl
@[simp] theorem State.noteKeyRead_stack : (s.noteKeyRead).stack = s.stack := rfl
@[simp] theorem State.noteKeyRead_sp : (s.noteKeyRead).sp = s.sp := rfl
@[simp] theorem State.noteKeyRead_dt : (s.noteKeyRead).dt = s.dt := rfl
@[simp] theorem State.noteKeyRead_st : (s.noteKeyRead).st = s.st := rfl
@[simp] theorem State.noteKeyRead_fb : (s.noteKeyRead).fb = s.fb := rfl
@[simp] theorem State.noteKeyRead_toneOn : (s.noteKeyRead).toneOn = s.toneOn := rfl
@[simp] theorem State.noteKeyRead_fault : (s.noteKeyRead).fault = s.fault := rfl
@[simp] theorem State.noteKeyRead_keyInput : (s.noteKeyRead).keyInput = s.keyInput := rfl
@[simp] theorem State.noteKeyRead_keyReads : (s.noteKeyRead).keyReads = s.keyReads + 1 := rfl
@[simp] theorem State.noteKeyRead_randomDraws : (s.noteKeyRead).randomDraws = s.randomDraws := rfl

/-! ### `noteDraw` -/

@[simp] theorem State.noteDraw_params : (s.noteDraw).params = s.params := rfl
@[simp] theorem State.noteDraw_mem : (s.noteDraw).mem = s.mem := rfl
@[simp] theorem State.noteDraw_v : (s.noteDraw).v = s.v := rfl
@[simp] theorem State.noteDraw_i : (s.noteDraw).i = s.i := rfl
@[simp] theorem State.noteDraw_pc : (s.noteDraw).pc = s.pc := rfl
@[simp] theorem State.noteDraw_stack : (s.noteDraw).stack = s.stack := rfl
@[simp] theorem State.noteDraw_sp : (s.noteDraw).sp = s.sp := rfl
@[simp] theorem State.noteDraw_dt : (s.noteDraw).dt = s.dt := rfl
@[simp] theorem State.noteDraw_st : (s.noteDraw).st = s.st := rfl
@[simp] theorem State.noteDraw_fb : (s.noteDraw).fb = s.fb := rfl
@[simp] theorem State.noteDraw_toneOn : (s.noteDraw).toneOn = s.toneOn := rfl
@[simp] theorem State.noteDraw_fault : (s.noteDraw).fault = s.fault := rfl
@[simp] theorem State.noteDraw_keyInput : (s.noteDraw).keyInput = s.keyInput := rfl
@[simp] theorem State.noteDraw_keyReads : (s.noteDraw).keyReads = s.keyReads := rfl
@[simp] theorem State.noteDraw_randomDraws : (s.noteDraw).randomDraws = s.randomDraws + 1 := rfl

/-! ### `preAdvance` -/

@[simp] theorem State.preAdvance_params : (s.preAdvance).params = s.params := rfl
@[simp] theorem State.preAdvance_mem : (s.preAdvance).mem = s.mem := rfl
@[simp] theorem State.preAdvance_v : (s.preAdvance).v = s.v := rfl
@[simp] theorem State.preAdvance_i : (s.preAdvance).i = s.i := rfl
@[simp] theorem State.preAdvance_pc : (s.preAdvance).pc = s.pc + 2 := rfl
@[simp] theorem State.preAdvance_stack : (s.preAdvance).stack = s.stack := rfl
@[simp] theorem State.preAdvance_sp : (s.preAdvance).sp = s.sp := rfl
@[simp] theorem State.preAdvance_dt : (s.preAdvance).dt = s.dt := rfl
@[simp] theorem State.preAdvance_st : (s.preAdvance).st = s.st := rfl
@[simp] theorem State.preAdvance_fb : (s.preAdvance).fb = s.fb := rfl
@[simp] theorem State.preAdvance_toneOn : (s.preAdvance).toneOn = s.toneOn := rfl
@[simp] theorem State.preAdvance_fault : (s.preAdvance).fault = s.fault := rfl
@[simp] theorem State.preAdvance_keyInput : (s.preAdvance).keyInput = s.keyInput := rfl
@[simp] theorem State.preAdvance_keyReads : (s.preAdvance).keyReads = s.keyReads := rfl
@[simp] theorem State.preAdvance_randomDraws : (s.preAdvance).randomDraws = s.randomDraws := rfl

/-! ### `takeFault` -/

@[simp] theorem State.takeFault_params (p : Word) (f : Word → Fault) : (s.takeFault p f).params = s.params := rfl
@[simp] theorem State.takeFault_mem (p : Word) (f : Word → Fault) : (s.takeFault p f).mem = s.mem := rfl
@[simp] theorem State.takeFault_v (p : Word) (f : Word → Fault) : (s.takeFault p f).v = s.v := rfl
@[simp] theorem State.takeFault_i (p : Word) (f : Word → Fault) : (s.takeFault p f).i = s.i := rfl
@[simp] theorem State.takeFault_pc (p : Word) (f : Word → Fault) : (s.takeFault p f).pc = p := rfl
@[simp] theorem State.takeFault_stack (p : Word) (f : Word → Fault) : (s.takeFault p f).stack = s.stack := rfl
@[simp] theorem State.takeFault_sp (p : Word) (f : Word → Fault) : (s.takeFault p f).sp = s.sp := rfl
@[simp] theorem State.takeFault_dt (p : Word) (f : Word → Fault) : (s.takeFault p f).dt = s.dt := rfl
@[simp] theorem State.takeFault_st (p : Word) (f : Word → Fault) : (s.takeFault p f).st = s.st := rfl
@[simp] theorem State.takeFault_fb (p : Word) (f : Word → Fault) : (s.takeFault p f).fb = s.fb := rfl
@[simp] theorem State.takeFault_toneOn (p : Word) (f : Word → Fault) : (s.takeFault p f).toneOn = s.toneOn := rfl
@[simp] theorem State.takeFault_fault (p : Word) (f : Word → Fault) : (s.takeFault p f).fault = some (f p) := rfl
@[simp] theorem State.takeFault_keyInput (p : Word) (f : Word → Fault) : (s.takeFault p f).keyInput = s.keyInput := rfl
@[simp] theorem State.takeFault_keyReads (p : Word) (f : Word → Fault) : (s.takeFault p f).keyReads = s.keyReads := rfl
@[simp] theorem State.takeFault_randomDraws (p : Word) (f : Word → Fault) : (s.takeFault p f).randomDraws = s.randomDraws := rfl

/-! ### `raiseInExec` -/

@[simp] theorem State.raiseInExec_params (f : Word → Fault) : (s.raiseInExec f).params = s.params := rfl
@[simp] theorem State.raiseInExec_mem (f : Word → Fault) : (s.raiseInExec f).mem = s.mem := rfl
@[simp] theorem State.raiseInExec_v (f : Word → Fault) : (s.raiseInExec f).v = s.v := rfl
@[simp] theorem State.raiseInExec_i (f : Word → Fault) : (s.raiseInExec f).i = s.i := rfl
@[simp] theorem State.raiseInExec_pc (f : Word → Fault) : (s.raiseInExec f).pc = s.pc - 2 := rfl
@[simp] theorem State.raiseInExec_stack (f : Word → Fault) : (s.raiseInExec f).stack = s.stack := rfl
@[simp] theorem State.raiseInExec_sp (f : Word → Fault) : (s.raiseInExec f).sp = s.sp := rfl
@[simp] theorem State.raiseInExec_dt (f : Word → Fault) : (s.raiseInExec f).dt = s.dt := rfl
@[simp] theorem State.raiseInExec_st (f : Word → Fault) : (s.raiseInExec f).st = s.st := rfl
@[simp] theorem State.raiseInExec_fb (f : Word → Fault) : (s.raiseInExec f).fb = s.fb := rfl
@[simp] theorem State.raiseInExec_toneOn (f : Word → Fault) : (s.raiseInExec f).toneOn = s.toneOn := rfl
@[simp] theorem State.raiseInExec_fault (f : Word → Fault) : (s.raiseInExec f).fault = some (f (s.pc - 2)) := rfl
@[simp] theorem State.raiseInExec_keyInput (f : Word → Fault) : (s.raiseInExec f).keyInput = s.keyInput := rfl
@[simp] theorem State.raiseInExec_keyReads (f : Word → Fault) : (s.raiseInExec f).keyReads = s.keyReads := rfl
@[simp] theorem State.raiseInExec_randomDraws (f : Word → Fault) : (s.raiseInExec f).randomDraws = s.randomDraws := rfl

/-! ### `takeFetchFault` -/

@[simp] theorem State.takeFetchFault_params : (s.takeFetchFault).params = s.params := rfl
@[simp] theorem State.takeFetchFault_mem : (s.takeFetchFault).mem = s.mem := rfl
@[simp] theorem State.takeFetchFault_v : (s.takeFetchFault).v = s.v := rfl
@[simp] theorem State.takeFetchFault_i : (s.takeFetchFault).i = s.i := rfl
@[simp] theorem State.takeFetchFault_pc : (s.takeFetchFault).pc = s.pc := rfl
@[simp] theorem State.takeFetchFault_stack : (s.takeFetchFault).stack = s.stack := rfl
@[simp] theorem State.takeFetchFault_sp : (s.takeFetchFault).sp = s.sp := rfl
@[simp] theorem State.takeFetchFault_dt : (s.takeFetchFault).dt = s.dt := rfl
@[simp] theorem State.takeFetchFault_st : (s.takeFetchFault).st = s.st := rfl
@[simp] theorem State.takeFetchFault_fb : (s.takeFetchFault).fb = s.fb := rfl
@[simp] theorem State.takeFetchFault_toneOn : (s.takeFetchFault).toneOn = s.toneOn := rfl
@[simp] theorem State.takeFetchFault_fault : (s.takeFetchFault).fault = some (.outOfBoundsMemoryAccess s.pc (firstOutOfRange s.pc.toNat)) := rfl
@[simp] theorem State.takeFetchFault_keyInput : (s.takeFetchFault).keyInput = s.keyInput := rfl
@[simp] theorem State.takeFetchFault_keyReads : (s.takeFetchFault).keyReads = s.keyReads := rfl
@[simp] theorem State.takeFetchFault_randomDraws : (s.takeFetchFault).randomDraws = s.randomDraws := rfl

/-! ### `drawSprite` -/

@[simp] theorem State.drawSprite_params (x y : Reg) (rows : List Byte) : (s.drawSprite x y rows).params = s.params := rfl
@[simp] theorem State.drawSprite_mem (x y : Reg) (rows : List Byte) : (s.drawSprite x y rows).mem = s.mem := rfl
@[simp] theorem State.drawSprite_v (x y : Reg) (rows : List Byte) : (s.drawSprite x y rows).v = s.v.set Reg.vf (collisionFlag (blit rows (s.getV x) (s.getV y) s.fb).2) := rfl
@[simp] theorem State.drawSprite_i (x y : Reg) (rows : List Byte) : (s.drawSprite x y rows).i = s.i := rfl
@[simp] theorem State.drawSprite_pc (x y : Reg) (rows : List Byte) : (s.drawSprite x y rows).pc = s.pc := rfl
@[simp] theorem State.drawSprite_stack (x y : Reg) (rows : List Byte) : (s.drawSprite x y rows).stack = s.stack := rfl
@[simp] theorem State.drawSprite_sp (x y : Reg) (rows : List Byte) : (s.drawSprite x y rows).sp = s.sp := rfl
@[simp] theorem State.drawSprite_dt (x y : Reg) (rows : List Byte) : (s.drawSprite x y rows).dt = s.dt := rfl
@[simp] theorem State.drawSprite_st (x y : Reg) (rows : List Byte) : (s.drawSprite x y rows).st = s.st := rfl
@[simp] theorem State.drawSprite_fb (x y : Reg) (rows : List Byte) : (s.drawSprite x y rows).fb = (blit rows (s.getV x) (s.getV y) s.fb).1 := rfl
@[simp] theorem State.drawSprite_toneOn (x y : Reg) (rows : List Byte) : (s.drawSprite x y rows).toneOn = s.toneOn := rfl
@[simp] theorem State.drawSprite_fault (x y : Reg) (rows : List Byte) : (s.drawSprite x y rows).fault = s.fault := rfl
@[simp] theorem State.drawSprite_keyInput (x y : Reg) (rows : List Byte) : (s.drawSprite x y rows).keyInput = s.keyInput := rfl
@[simp] theorem State.drawSprite_keyReads (x y : Reg) (rows : List Byte) : (s.drawSprite x y rows).keyReads = s.keyReads := rfl
@[simp] theorem State.drawSprite_randomDraws (x y : Reg) (rows : List Byte) : (s.drawSprite x y rows).randomDraws = s.randomDraws := rfl

/-! ### `tick` -/

@[simp] theorem State.tick_params : (s.tick).params = s.params := rfl
@[simp] theorem State.tick_mem : (s.tick).mem = s.mem := rfl
@[simp] theorem State.tick_v : (s.tick).v = s.v := rfl
@[simp] theorem State.tick_i : (s.tick).i = s.i := rfl
@[simp] theorem State.tick_pc : (s.tick).pc = s.pc := rfl
@[simp] theorem State.tick_stack : (s.tick).stack = s.stack := rfl
@[simp] theorem State.tick_sp : (s.tick).sp = s.sp := rfl
@[simp] theorem State.tick_dt : (s.tick).dt = countDown s.dt := rfl
@[simp] theorem State.tick_st : (s.tick).st = countDown s.st := rfl
@[simp] theorem State.tick_fb : (s.tick).fb = s.fb := rfl
@[simp] theorem State.tick_toneOn : (s.tick).toneOn = decide (tickRequest s = .startTone) := rfl
@[simp] theorem State.tick_fault : (s.tick).fault = s.fault := rfl
@[simp] theorem State.tick_keyInput : (s.tick).keyInput = s.keyInput := rfl
@[simp] theorem State.tick_keyReads : (s.tick).keyReads = s.keyReads := rfl
@[simp] theorem State.tick_randomDraws : (s.tick).randomDraws = s.randomDraws := rfl

/-! ### `setKeyInput` -/

@[simp] theorem State.setKeyInput_params (k : KeyInput) : (s.setKeyInput k).params = s.params := rfl
@[simp] theorem State.setKeyInput_mem (k : KeyInput) : (s.setKeyInput k).mem = s.mem := rfl
@[simp] theorem State.setKeyInput_v (k : KeyInput) : (s.setKeyInput k).v = s.v := rfl
@[simp] theorem State.setKeyInput_i (k : KeyInput) : (s.setKeyInput k).i = s.i := rfl
@[simp] theorem State.setKeyInput_pc (k : KeyInput) : (s.setKeyInput k).pc = s.pc := rfl
@[simp] theorem State.setKeyInput_stack (k : KeyInput) : (s.setKeyInput k).stack = s.stack := rfl
@[simp] theorem State.setKeyInput_sp (k : KeyInput) : (s.setKeyInput k).sp = s.sp := rfl
@[simp] theorem State.setKeyInput_dt (k : KeyInput) : (s.setKeyInput k).dt = s.dt := rfl
@[simp] theorem State.setKeyInput_st (k : KeyInput) : (s.setKeyInput k).st = s.st := rfl
@[simp] theorem State.setKeyInput_fb (k : KeyInput) : (s.setKeyInput k).fb = s.fb := rfl
@[simp] theorem State.setKeyInput_toneOn (k : KeyInput) : (s.setKeyInput k).toneOn = s.toneOn := rfl
@[simp] theorem State.setKeyInput_fault (k : KeyInput) : (s.setKeyInput k).fault = s.fault := rfl
@[simp] theorem State.setKeyInput_keyInput (k : KeyInput) : (s.setKeyInput k).keyInput = k := rfl
@[simp] theorem State.setKeyInput_keyReads (k : KeyInput) : (s.setKeyInput k).keyReads = s.keyReads := rfl
@[simp] theorem State.setKeyInput_randomDraws (k : KeyInput) : (s.setKeyInput k).randomDraws = s.randomDraws := rfl

/-! ### `skipIf`, `takeKey`, `placeWord` -/

@[simp] theorem State.skipIf_params (c : Prop) [Decidable c] : (s.skipIf c).params = s.params := by unfold State.skipIf; split <;> rfl
@[simp] theorem State.skipIf_mem (c : Prop) [Decidable c] : (s.skipIf c).mem = s.mem := by unfold State.skipIf; split <;> rfl
@[simp] theorem State.skipIf_v (c : Prop) [Decidable c] : (s.skipIf c).v = s.v := by unfold State.skipIf; split <;> rfl
@[simp] theorem State.skipIf_i (c : Prop) [Decidable c] : (s.skipIf c).i = s.i := by unfold State.skipIf; split <;> rfl
@[simp] theorem State.skipIf_pc (c : Prop) [Decidable c] : (s.skipIf c).pc = if c then s.pc + 2 else s.pc := by
  unfold State.skipIf; split <;> rfl
@[simp] theorem State.skipIf_stack (c : Prop) [Decidable c] : (s.skipIf c).stack = s.stack := by unfold State.skipIf; split <;> rfl
@[simp] theorem State.skipIf_sp (c : Prop) [Decidable c] : (s.skipIf c).sp = s.sp := by unfold State.skipIf; split <;> rfl
@[simp] theorem State.skipIf_dt (c : Prop) [Decidable c] : (s.skipIf c).dt = s.dt := by unfold State.skipIf; split <;> rfl
@[simp] theorem State.skipIf_st (c : Prop) [Decidable c] : (s.skipIf c).st = s.st := by unfold State.skipIf; split <;> rfl
@[simp] theorem State.skipIf_fb (c : Prop) [Decidable c] : (s.skipIf c).fb = s.fb := by unfold State.skipIf; split <;> rfl
@[simp] theorem State.skipIf_toneOn (c : Prop) [Decidable c] : (s.skipIf c).toneOn = s.toneOn := by unfold State.skipIf; split <;> rfl
@[simp] theorem State.skipIf_fault (c : Prop) [Decidable c] : (s.skipIf c).fault = s.fault := by unfold State.skipIf; split <;> rfl
@[simp] theorem State.skipIf_keyInput (c : Prop) [Decidable c] : (s.skipIf c).keyInput = s.keyInput := by unfold State.skipIf; split <;> rfl
@[simp] theorem State.skipIf_keyReads (c : Prop) [Decidable c] : (s.skipIf c).keyReads = s.keyReads := by unfold State.skipIf; split <;> rfl
@[simp] theorem State.skipIf_randomDraws (c : Prop) [Decidable c] : (s.skipIf c).randomDraws = s.randomDraws := by unfold State.skipIf; split <;> rfl

@[simp] theorem State.takeKey_params (x : Reg) (k : Option Key) : (s.takeKey x k).params = s.params := by cases k <;> rfl
@[simp] theorem State.takeKey_mem (x : Reg) (k : Option Key) : (s.takeKey x k).mem = s.mem := by cases k <;> rfl
@[simp] theorem State.takeKey_i (x : Reg) (k : Option Key) : (s.takeKey x k).i = s.i := by cases k <;> rfl
@[simp] theorem State.takeKey_stack (x : Reg) (k : Option Key) : (s.takeKey x k).stack = s.stack := by cases k <;> rfl
@[simp] theorem State.takeKey_sp (x : Reg) (k : Option Key) : (s.takeKey x k).sp = s.sp := by cases k <;> rfl
@[simp] theorem State.takeKey_dt (x : Reg) (k : Option Key) : (s.takeKey x k).dt = s.dt := by cases k <;> rfl
@[simp] theorem State.takeKey_st (x : Reg) (k : Option Key) : (s.takeKey x k).st = s.st := by cases k <;> rfl
@[simp] theorem State.takeKey_fb (x : Reg) (k : Option Key) : (s.takeKey x k).fb = s.fb := by cases k <;> rfl
@[simp] theorem State.takeKey_toneOn (x : Reg) (k : Option Key) : (s.takeKey x k).toneOn = s.toneOn := by cases k <;> rfl
@[simp] theorem State.takeKey_fault (x : Reg) (k : Option Key) : (s.takeKey x k).fault = s.fault := by cases k <;> rfl
@[simp] theorem State.takeKey_keyInput (x : Reg) (k : Option Key) : (s.takeKey x k).keyInput = s.keyInput := by cases k <;> rfl
@[simp] theorem State.takeKey_keyReads (x : Reg) (k : Option Key) : (s.takeKey x k).keyReads = s.keyReads := by cases k <;> rfl
@[simp] theorem State.takeKey_randomDraws (x : Reg) (k : Option Key) : (s.takeKey x k).randomDraws = s.randomDraws := by cases k <;> rfl

@[simp] theorem State.placeWord_params (w : Word) : (s.placeWord w).params = s.params := rfl
@[simp] theorem State.placeWord_v (w : Word) : (s.placeWord w).v = s.v := rfl
@[simp] theorem State.placeWord_i (w : Word) : (s.placeWord w).i = s.i := rfl
@[simp] theorem State.placeWord_stack (w : Word) : (s.placeWord w).stack = s.stack := rfl
@[simp] theorem State.placeWord_sp (w : Word) : (s.placeWord w).sp = s.sp := rfl
@[simp] theorem State.placeWord_dt (w : Word) : (s.placeWord w).dt = s.dt := rfl
@[simp] theorem State.placeWord_st (w : Word) : (s.placeWord w).st = s.st := rfl
@[simp] theorem State.placeWord_fb (w : Word) : (s.placeWord w).fb = s.fb := rfl
@[simp] theorem State.placeWord_toneOn (w : Word) : (s.placeWord w).toneOn = s.toneOn := rfl
@[simp] theorem State.placeWord_keyInput (w : Word) : (s.placeWord w).keyInput = s.keyInput := rfl
@[simp] theorem State.placeWord_keyReads (w : Word) : (s.placeWord w).keyReads = s.keyReads := rfl
@[simp] theorem State.placeWord_randomDraws (w : Word) : (s.placeWord w).randomDraws = s.randomDraws := rfl
@[simp] theorem State.placeWord_fault (w : Word) : (s.placeWord w).fault = none := rfl
@[simp] theorem State.placeWord_pc (w : Word) : (s.placeWord w).pc = if s.pc.toNat + 1 > 4095 then 0x200 else s.pc := rfl

/-! ### `resetCore`, `load` -/

@[simp] theorem State.resetCore_params : s.resetCore.params = s.params := rfl
@[simp] theorem State.resetCore_mem : s.resetCore.mem = [] := rfl
@[simp] theorem State.resetCore_v : s.resetCore.v = Vector.replicate 16 0 := rfl
@[simp] theorem State.resetCore_i : s.resetCore.i = 0 := rfl
@[simp] theorem State.resetCore_pc : s.resetCore.pc = 0x200 := rfl
@[simp] theorem State.resetCore_stack : s.resetCore.stack = List.replicate s.params.stackDepth 0 := rfl
@[simp] theorem State.resetCore_sp : s.resetCore.sp = 0 := rfl
@[simp] theorem State.resetCore_dt : s.resetCore.dt = 0 := rfl
@[simp] theorem State.resetCore_st : s.resetCore.st = 0 := rfl
@[simp] theorem State.resetCore_fb : s.resetCore.fb = Vector.replicate 32 0 := rfl
@[simp] theorem State.resetCore_toneOn : s.resetCore.toneOn = s.toneOn := rfl
@[simp] theorem State.resetCore_fault : s.resetCore.fault = none := rfl
@[simp] theorem State.resetCore_keyInput : s.resetCore.keyInput = s.keyInput := rfl
@[simp] theorem State.resetCore_keyReads : s.resetCore.keyReads = s.keyReads := rfl
@[simp] theorem State.resetCore_randomDraws : s.resetCore.randomDraws = s.randomDraws := rfl

/-- A load that fits is the image over the reset state (R112). -/
theorem State.load_of_fits (image : List Byte) (h : imageFits image = true) :
    s.load image = s.resetCore.writeBytes Config.loadOffset image := by simp [State.load, h]

/-- A load that does not fit changes nothing (R113). -/
theorem State.load_of_not_fits (image : List Byte) (h : imageFits image = false) : s.load image = s := by
  simp [State.load, h]

end Sys2Proof.Machine
end

