-- ==== Sys2Proof/Laws/Ops.lean ====
section
/-! SUPPORT. One lemma for each thing a shared operation can do: registers, the stack, the range check, the fetch, placing a word,
8-bit results and flags. -/

namespace Sys2Proof.Machine

variable (s : State)

/-! ## Registers -/

theorem State.getV_setV (x r : Reg) (b : Byte) : (s.setV x b).getV r = if r = x then b else s.getV r := by
  by_cases h : r = x
  · subst h; simp [State.getV]
  · have : x.val ≠ r.val := fun e => h (Fin.ext e.symm)
    simp [State.getV, h, this]

@[simp] theorem State.getV_setV_same (x : Reg) (b : Byte) : (s.setV x b).getV x = b := by simp [State.getV_setV]

theorem State.getV_setV_other {x r : Reg} (b : Byte) (h : r ≠ x) : (s.setV x b).getV r = s.getV r := by
  simp [State.getV_setV, h]

/-- R46: VF ends holding the flag, whatever the destination. -/
@[simp] theorem State.getV_setVThenFlag_vf (x : Reg) (b f : Byte) : (s.setVThenFlag x b f).getV 15 = f :=
  State.getV_setV_same _ _ _

theorem State.getV_setVThenFlag {x r : Reg} (b f : Byte) (h : r ≠ 15) :
    (s.setVThenFlag x b f).getV r = if r = x then b else s.getV r := by
  rw [State.setVThenFlag, State.getV_setV_other _ f h, State.getV_setV]

@[simp] theorem State.getV_skipIf (c : Prop) [Decidable c] (r : Reg) : (s.skipIf c).getV r = s.getV r := by
  simp [State.getV]

/-- R80: the registers up to Vx come from memory, the others stay. -/
theorem State.getV_loadRegs (x r : Reg) (a : Nat) :
    (s.loadRegs x a).getV r = if r ≤ x then s.readByte (a + r.val) else s.getV r := by
  simp [State.getV]

/-! ## Bytes of memory under updates that do not write it -/

@[simp] theorem State.readByte_setV (x : Reg) (b : Byte) (a : Nat) : (s.setV x b).readByte a = s.readByte a := rfl
@[simp] theorem State.readByte_setVThenFlag (x : Reg) (b f : Byte) (a : Nat) :
    (s.setVThenFlag x b f).readByte a = s.readByte a := rfl
@[simp] theorem State.readByte_setI (w : Word) (a : Nat) : (s.setI w).readByte a = s.readByte a := rfl
@[simp] theorem State.readByte_setPc (w : Word) (a : Nat) : (s.setPc w).readByte a = s.readByte a := rfl
@[simp] theorem State.readByte_setFb (fb : FrameBuffer) (a : Nat) : (s.setFb fb).readByte a = s.readByte a := rfl
@[simp] theorem State.readByte_skipIf (c : Prop) [Decidable c] (a : Nat) : (s.skipIf c).readByte a = s.readByte a := by
  simp [State.readByte]
@[simp] theorem State.readByte_loadRegs (x : Reg) (b a : Nat) : (s.loadRegs x b).readByte a = s.readByte a := by
  simp [State.readByte]
@[simp] theorem State.readByte_preAdvance (a : Nat) : s.preAdvance.readByte a = s.readByte a := rfl
@[simp] theorem State.readByte_takeFault (p : Word) (f : Word → Fault) (a : Nat) :
    (s.takeFault p f).readByte a = s.readByte a := rfl

/-- R19: the bytes of memory after a reset. -/
theorem State.readByte_resetCore (a : Nat) : s.resetCore.readByte a = resetByte s.params a := rfl

theorem length_readBytes (a n : Nat) : (s.readBytes a n).length = n := by simp [State.readBytes]

theorem getElem_readBytes (a n j : Nat) (h : j < (s.readBytes a n).length) :
    (s.readBytes a n)[j] = s.readByte (a + j) := by simp [State.readBytes]

theorem length_regsUpTo (x : Reg) : (s.regsUpTo x).length = x.val + 1 := by simp [State.regsUpTo]

theorem getElem_regsUpTo (x : Reg) (j : Nat) (h : j < (s.regsUpTo x).length) :
    (s.regsUpTo x)[j] = s.getV (Fin.ofNat 16 j) := by simp [State.regsUpTo]

/-! ## The stack -/

theorem State.stackEntry_push_same (a : Word) (h : s.sp < s.stack.length) : (s.push a).stackEntry s.sp = a := by
  simp [State.stackEntry, List.getD, h]

theorem State.stackEntry_push_other (a : Word) {j : Nat} (h : j ≠ s.sp) : (s.push a).stackEntry j = s.stackEntry j := by
  simp [State.stackEntry, List.getD, Ne.symm h]

/-! ## The range check -/

/-- R32: in range, the instruction's own effect. -/
theorem State.withRange_in {n : Nat} {done : State} (h : inRange s.i.toNat n) : s.withRange n done = done := by
  simp only [State.withRange, if_pos h]

/-- R32: out of range, the fault with the first address above 4095, and nothing of the effect. -/
theorem State.withRange_out {n : Nat} {done : State} (h : ¬ inRange s.i.toNat n) :
    s.withRange n done =
      { s with pc := s.pc - 2, fault := some (.outOfBoundsMemoryAccess (s.pc - 2) (max s.i.toNat 4096)) } := by
  simp only [State.withRange, if_neg h]; rfl

/-- R32: the two things a checked range can lead to. -/
theorem State.withRange_cases (n : Nat) (done : State) :
    (inRange s.i.toNat n ∧ s.withRange n done = done) ∨
      (¬ inRange s.i.toNat n ∧ s.withRange n done =
        s.raiseInExec fun pc => .outOfBoundsMemoryAccess pc (firstOutOfRange s.i.toNat)) := by
  by_cases h : inRange s.i.toNat n
  · exact .inl ⟨h, s.withRange_in h⟩
  · exact .inr ⟨h, by simp only [State.withRange, if_neg h]⟩

/-! ## Words and bytes -/

theorem wordOfBytes_toNat (hi lo : Byte) : (wordOfBytes hi lo).toNat = hi.toNat * 256 + lo.toNat := by
  have h := lo.isLt
  rw [wordOfBytes, BitVec.toNat_append, ← Nat.shiftLeft_add_eq_or_of_lt h, Nat.shiftLeft_eq]

/-- R29, R30: a word's two bytes, the high one first, make the word again. -/
@[simp] theorem wordOfBytes_highByte_lowByte (w : Word) : wordOfBytes (highByte w) (lowByte w) = w := by
  have h := w.isLt
  apply BitVec.eq_of_toNat_eq
  rw [wordOfBytes_toNat]
  simp only [highByte, lowByte, BitVec.toNat_ofNat]
  omega

/-! ## The fetch -/

theorem State.fetchWord_eq_some (h : s.pc.toNat ≤ 4094) :
    s.fetchWord = some (wordOfBytes (s.readByte s.pc.toNat) (s.readByte (s.pc.toNat + 1))) := by
  have : ¬ s.pc.toNat + 1 > 4095 := by omega
  simp only [State.fetchWord, if_neg this]

theorem State.fetchWord_eq_none (h : 4094 < s.pc.toNat) : s.fetchWord = none := by
  have : s.pc.toNat + 1 > 4095 := by omega
  simp only [State.fetchWord, if_pos this]

/-- The word placed is the word fetched. -/
theorem State.fetchWord_placeWord (w : Word) (h : s.mem.wf s.params) : (s.placeWord w).fetchWord = some w := by
  have key : ∀ u : State, u.mem.wf u.params → u.pc.toNat ≤ 4094 →
      (u.writeBytes u.pc.toNat [highByte w, lowByte w]).fetchWord = some w := by
    intro u hu hpc
    have h0 := State.readByte_writeBytes_inside (s := u) [highByte w, lowByte w] u.pc.toNat 0 (by simp) (by simp; omega) hu
    have h1 := State.readByte_writeBytes_inside (s := u) [highByte w, lowByte w] u.pc.toNat 1 (by simp) (by simp; omega) hu
    rw [State.fetchWord_eq_some (u.writeBytes u.pc.toNat [highByte w, lowByte w]) hpc]
    simp only [Nat.add_zero, List.getElem_cons_zero, List.getElem_cons_succ] at h0 h1
    simp only [State.writeBytes_pc, h0, h1, wordOfBytes_highByte_lowByte]
  refine key _ h ?_
  show (if s.pc.toNat + 1 > 4095 then (0x200 : Word) else s.pc).toNat ≤ 4094
  split
  · decide
  · omega

/-! ## 8-bit results and flags -/

theorem sumByte_toNat (a b : Byte) : (sumByte a b).toNat = (a.toNat + b.toNat) % 256 := by simp [sumByte]

theorem diffByte_toNat (a b : Byte) : ((diffByte a b).toNat : Int) = ((a.toNat : Int) - b.toNat) % 256 := by
  simp only [diffByte, BitVec.toNat_ofInt]
  omega

theorem flagByte_of (c : Prop) [Decidable c] (h : c) : flagByte c = 1 := by simp [flagByte, h]

theorem flagByte_of_not (c : Prop) [Decidable c] (h : ¬ c) : flagByte c = 0 := by simp [flagByte, h]

/-- A flag is 0 or 1. -/
theorem flagByte_cases (c : Prop) [Decidable c] : flagByte c = 0 ∨ flagByte c = 1 := by
  by_cases h : c <;> simp [flagByte, h]

theorem shiftedOutLow_toNat (a : Byte) : (shiftedOutLow a).toNat = a.toNat % 2 := by
  simp [shiftedOutLow, BitVec.toNat_and, Nat.and_one_is_mod]

theorem shiftedOutHigh_toNat (a : Byte) : (shiftedOutHigh a).toNat = a.toNat / 128 := by
  have h := a.isLt
  have h1 : (1 : Byte).toNat = 1 := rfl
  simp only [shiftedOutHigh, BitVec.toNat_and, BitVec.toNat_ushiftRight, Nat.shiftRight_eq_div_pow, h1, Nat.and_one_is_mod]
  omega

theorem shiftRight1_toNat (a : Byte) : (shiftRight1 a).toNat = a.toNat / 2 := by
  simp [shiftRight1, BitVec.toNat_ushiftRight, Nat.shiftRight_eq_div_pow]

theorem shiftLeft1_toNat (a : Byte) : (shiftLeft1 a).toNat = a.toNat * 2 % 256 := by
  simp [shiftLeft1, BitVec.toNat_shiftLeft, Nat.shiftLeft_eq]

/-- R76: the sum reduced modulo 0x1000 fits 16 bits. -/
theorem indexSum_toNat (i : Word) (a : Byte) : (indexSum i a).toNat = (i.toNat + a.toNat) % 0x1000 := by
  simp only [indexSum, BitVec.toNat_ofNat]
  omega

theorem zextAddr_toNat (nnn : Addr12) : (zextAddr nnn).toNat = nnn.toNat := by
  have h := nnn.isLt
  simp only [zextAddr, BitVec.toNat_setWidth]
  omega

/-- R60: the target is at most 0x10FE, so it is not reduced. -/
theorem offsetTarget_toNat (nnn : Addr12) (a : Byte) : (offsetTarget nnn a).toNat = nnn.toNat + a.toNat := by
  have h := nnn.isLt
  have h' := a.isLt
  simp only [offsetTarget, BitVec.toNat_ofNat]
  omega

/-- R3: FONT_BASE + 80 <= 0x200. -/
theorem Params.fontBase_le {p : Params} (h : p.wellFormed = true) : p.fontBase + 80 ≤ 0x200 := by
  simp only [Params.wellFormed, Bool.and_eq_true] at h
  exact of_decide_eq_true h.1.1

/-- R77: with FONT_BASE within its bound the address fits 16 bits. -/
theorem glyphAddress_toNat (p : Params) (a : Byte) (h : p.wellFormed = true) :
    (glyphAddress p a).toNat = p.fontBase + a.toNat * 5 := by
  have h' := a.isLt
  have hb := Params.fontBase_le h
  simp only [glyphAddress, BitVec.toNat_ofNat]
  omega

/-! ## Keys -/

theorem State.keySnapshot_fixed (k : Option Key) : (s.setKeyInput (.fixed k)).keySnapshot = k := rfl

theorem keyEquals_none (a : Byte) : ¬ keyEquals none a := by simp

theorem keyEquals_some (k : Key) (a : Byte) : keyEquals (some k) a ↔ k.toNat = a.toNat := by
  have h := k.isLt
  simp only [keyEquals, Option.any_some, beq_iff_eq]
  constructor
  · rintro rfl; simp only [BitVec.toNat_setWidth]; omega
  · intro e
    apply BitVec.eq_of_toNat_eq
    simp only [BitVec.toNat_setWidth]
    omega

end Sys2Proof.Machine
end

