-- ==== Sys2Proof/Laws/Display.lean ====
section
/-! SUPPORT. The pixels of the framebuffer under its two updates (R15, R81, R82). -/

namespace Sys2Proof.Machine

theorem FrameBuffer.pixel_clear (c : Fin 64) (r : Fin 32) : FrameBuffer.clear.pixel c r = false := by
  simp [FrameBuffer.clear, FrameBuffer.pixel]

/-- Toggling a pixel changes that pixel and no other. -/
theorem FrameBuffer.pixel_toggle (fb : FrameBuffer) (c c' : Fin 64) (r r' : Fin 32) :
    (fb.toggle c r).pixel c' r' = (fb.pixel c' r' ^^ decide (c' = c ∧ r' = r)) := by
  by_cases hr : r' = r
  · subst hr
    by_cases hc : c' = c
    · subst hc
      simp [FrameBuffer.toggle, FrameBuffer.pixel]
    · have : c'.val ≠ c.val := fun e => hc (Fin.ext e)
      simp [FrameBuffer.toggle, FrameBuffer.pixel, hc, this]
  · have : r.val ≠ r'.val := fun e => hr (Fin.ext e.symm)
    simp [FrameBuffer.toggle, FrameBuffer.pixel, hr, this]

/-- Two framebuffers with the same pixels are equal. -/
theorem FrameBuffer.ext_pixel {fb fb' : FrameBuffer} (h : ∀ c r, fb.pixel c r = fb'.pixel c r) : fb = fb' := by
  apply Vector.ext
  intro r hr
  apply BitVec.eq_of_getLsbD_eq
  intro c hc
  exact h ⟨c, hc⟩ ⟨r, hr⟩

end Sys2Proof.Machine
end

