-- ==== Sys2Proof/Laws/PerInstr.lean ====
section
/-! SUPPORT. Statements for all instructions, one lemma a constructor. `EncodesItsRow`: the encoding of an instruction matches the mask
and pattern of its row of the opcode table (R41, R43). -/

namespace Sys2Proof.Laws.EncodesItsRow

def Statement (i : Instr) : Prop := (encode i).toNat &&& i.row.mask = i.row.pattern

theorem cls : Statement .cls := rfl

theorem ret : Statement .ret := rfl

theorem jp (nnn : Addr12) : Statement (.jp nnn) := encodeA_matches 0x1 nnn (by decide)

theorem call (nnn : Addr12) : Statement (.call nnn) := encodeA_matches 0x2 nnn (by decide)

theorem seByte (x : Reg) (kk : Byte) : Statement (.seByte x kk) := encodeXK_matches 0x3 x kk (by decide)

theorem sneByte (x : Reg) (kk : Byte) : Statement (.sneByte x kk) := encodeXK_matches 0x4 x kk (by decide)

theorem seReg (x y : Reg) : Statement (.seReg x y) := encodeXY_matches 0x5 x y 0x0 (by decide) (by decide)

theorem ldByte (x : Reg) (kk : Byte) : Statement (.ldByte x kk) := encodeXK_matches 0x6 x kk (by decide)

theorem addByte (x : Reg) (kk : Byte) : Statement (.addByte x kk) := encodeXK_matches 0x7 x kk (by decide)

theorem ldReg (x y : Reg) : Statement (.ldReg x y) := encodeXY_matches 0x8 x y 0x0 (by decide) (by decide)

theorem orReg (x y : Reg) : Statement (.orReg x y) := encodeXY_matches 0x8 x y 0x1 (by decide) (by decide)

theorem andReg (x y : Reg) : Statement (.andReg x y) := encodeXY_matches 0x8 x y 0x2 (by decide) (by decide)

theorem xorReg (x y : Reg) : Statement (.xorReg x y) := encodeXY_matches 0x8 x y 0x3 (by decide) (by decide)

theorem addReg (x y : Reg) : Statement (.addReg x y) := encodeXY_matches 0x8 x y 0x4 (by decide) (by decide)

theorem subReg (x y : Reg) : Statement (.subReg x y) := encodeXY_matches 0x8 x y 0x5 (by decide) (by decide)

theorem shr (x y : Reg) : Statement (.shr x y) := encodeXY_matches 0x8 x y 0x6 (by decide) (by decide)

theorem subnReg (x y : Reg) : Statement (.subnReg x y) := encodeXY_matches 0x8 x y 0x7 (by decide) (by decide)

theorem shl (x y : Reg) : Statement (.shl x y) := encodeXY_matches 0x8 x y 0xE (by decide) (by decide)

theorem sneReg (x y : Reg) : Statement (.sneReg x y) := encodeXY_matches 0x9 x y 0x0 (by decide) (by decide)

theorem ldI (nnn : Addr12) : Statement (.ldI nnn) := encodeA_matches 0xA nnn (by decide)

theorem jpV0 (nnn : Addr12) : Statement (.jpV0 nnn) := encodeA_matches 0xB nnn (by decide)

theorem rnd (x : Reg) (kk : Byte) : Statement (.rnd x kk) := encodeXK_matches 0xC x kk (by decide)

theorem drw (x y : Reg) (n : RowCount) : Statement (.drw x y n) := encodeXYN_matches 0xD x y n.toNat (by decide) n.isLt

theorem skp (x : Reg) : Statement (.skp x) := encodeX_matches 0xE x 0x9E (by decide) (by decide)

theorem sknp (x : Reg) : Statement (.sknp x) := encodeX_matches 0xE x 0xA1 (by decide) (by decide)

theorem ldVxDt (x : Reg) : Statement (.ldVxDt x) := encodeX_matches 0xF x 0x07 (by decide) (by decide)

theorem ldVxK (x : Reg) : Statement (.ldVxK x) := encodeX_matches 0xF x 0x0A (by decide) (by decide)

theorem ldDtVx (x : Reg) : Statement (.ldDtVx x) := encodeX_matches 0xF x 0x15 (by decide) (by decide)

theorem ldStVx (x : Reg) : Statement (.ldStVx x) := encodeX_matches 0xF x 0x18 (by decide) (by decide)

theorem addI (x : Reg) : Statement (.addI x) := encodeX_matches 0xF x 0x1E (by decide) (by decide)

theorem ldF (x : Reg) : Statement (.ldF x) := encodeX_matches 0xF x 0x29 (by decide) (by decide)

theorem ldB (x : Reg) : Statement (.ldB x) := encodeX_matches 0xF x 0x33 (by decide) (by decide)

theorem ldMemVx (x : Reg) : Statement (.ldMemVx x) := encodeX_matches 0xF x 0x55 (by decide) (by decide)

theorem ldVxMem (x : Reg) : Statement (.ldVxMem x) := encodeX_matches 0xF x 0x65 (by decide) (by decide)

end Sys2Proof.Laws.EncodesItsRow
end

