-- ==== Sys2Proof/Laws/Step.lean ====
section
/-! SUPPORT. Everything `step` can do, said once (R45, R93, R94, R96). -/

namespace Sys2Proof.Machine

variable {s t : State}

theorem step_of_fault {f : Fault} (h : s.fault = some f) : step s = .fault f := by simp only [step, h]

theorem step_of_fetch_none (h : s.fault = none) (hw : s.fetchWord = none) : step s = .next s.takeFetchFault := by
  simp only [step, h, hw]

theorem step_of_unknown {w u : Word} (h : s.fault = none) (hw : s.fetchWord = some w)
    (hd : decodeWord w = .unknownInstruction u) : step s = .next s.preAdvance := by simp only [step, h, hw, hd]

theorem step_of_instr {w : Word} {i : Instr} (h : s.fault = none) (hw : s.fetchWord = some w)
    (hd : decodeWord w = .instr i) : step s = exec i s.preAdvance := by simp only [step, h, hw, hd]

/-- A step with a next state starts with no fault and is one of: the fetch fault, an illegal word's pre-advance, an instruction. -/
theorem step_cases (h : step s = .next t) :
    s.fault = none ∧
      ((s.fetchWord = none ∧ t = s.takeFetchFault) ∨
       (∃ w u, s.fetchWord = some w ∧ decodeWord w = .unknownInstruction u ∧ t = s.preAdvance) ∨
       ∃ w i, s.fetchWord = some w ∧ decodeWord w = .instr i ∧ exec i s.preAdvance = .next t) := by
  unfold step at h
  split at h
  · cases h
  · next hf =>
    refine ⟨hf, ?_⟩
    split at h
    · next hw => injection h with h; exact .inl ⟨hw, h.symm⟩
    · next w hw =>
      split at h
      · next u hd => injection h with h; exact .inr (.inl ⟨w, u, hw, hd, h.symm⟩)
      · next i hd => exact .inr (.inr ⟨w, i, hw, hd, h⟩)

/-- The word the host places is the word the next step fetches. -/
theorem State.fetchWord_withFetchWord (w : Word) (h : s.mem.wf s.params) :
    (s.withFetchWord 16 w.toNat).fetchWord = some w := by
  have hw : BitVec.ofNat 16 (w.toNat % 2 ^ 16) = w := by
    apply BitVec.eq_of_toNat_eq
    have := w.isLt
    simp only [BitVec.toNat_ofNat]
    omega
  rw [State.withFetchWord, hw, State.fetchWord_placeWord s w h]

/-- So the very next step runs the instruction it encodes. -/
theorem step_withFetchWord (i : Instr) (w : Word) (h : s.mem.wf s.params) (hd : decodeWord w = .instr i) :
    step (s.withFetchWord 16 w.toNat) = exec i (s.withFetchWord 16 w.toNat).preAdvance :=
  step_of_instr rfl (State.fetchWord_withFetchWord w h) hd

end Sys2Proof.Machine
end

