-- ==== Sys2Proof/Tests/Slice0.lean ====
section
/-! SUPPORT. Tests: ill-formed terms refused, words of the spec's encodings decoded, one step each on the spec's own vectors
(95_test_vectors.md; "L1" are the source's worked examples, "L2" the spec's derived vectors), and a witness for every statement that has
hypotheses. -/

namespace Sys2Proof.Tests

open Sys2Proof.Machine Sys2Proof.Claims

/-! ## Well-formedness -/

theorem test_params_default_wellFormed : defaultParams.wellFormed = true := by decide

/-- FONT_BASE + 80 = 0x201 is above the load offset. -/
theorem test_params_fontBase_too_high : { defaultParams with fontBase := 433 : Params }.fontBelowLoadOffset = false := by decide

theorem test_params_font_short : { defaultParams with fontGlyphs := [0xF0] : Params }.fontHas80Bytes = false := by decide

theorem test_params_font_low_nibble : { defaultParams with fontGlyphs := [0xF1] : Params }.fontLowNibblesZero = false := by decide

theorem test_params_refused : { defaultParams with fontBase := 433 : Params }.wellFormed = false := by decide

/-- L2.7: an image of 3585 bytes is refused. -/
theorem test_image_too_long : imageFits (List.replicate 3585 0) = false := by
  unfold imageFits
  rw [List.length_replicate]
  decide

/-! ## Decoding: a word of each constructor, from its pattern (30_encoding.md, opcode_table.json) -/

theorem test_decode_control :
    decodeWord 0b0000_0000_1110_1110#16 = .instr .ret ∧ decodeWord 0b0001_0010_0000_1100#16 = .instr (.jp 0x20C) ∧
    decodeWord 0b0010_0011_0100_0101#16 = .instr (.call 0x345) ∧ decodeWord 0b0011_0011_0100_0010#16 = .instr (.seByte 3 0x42) ∧
    decodeWord 0b0100_0011_0100_0010#16 = .instr (.sneByte 3 0x42) ∧ decodeWord 0b0101_0001_0010_0000#16 = .instr (.seReg 1 2) ∧
    decodeWord 0b1001_0001_0010_0000#16 = .instr (.sneReg 1 2) ∧ decodeWord 0b1011_0011_0000_0000#16 = .instr (.jpV0 0x300) := by
  decide

theorem test_decode_alu :
    decodeWord 0b0110_0101_1001_1100#16 = .instr (.ldByte 5 0x9C) ∧ decodeWord 0b0111_0000_0000_0011#16 = .instr (.addByte 0 3) ∧
    decodeWord 0b1000_0001_0010_0000#16 = .instr (.ldReg 1 2) ∧ decodeWord 0b1000_0001_0010_0001#16 = .instr (.orReg 1 2) ∧
    decodeWord 0b1000_0001_0010_0010#16 = .instr (.andReg 1 2) ∧ decodeWord 0b1000_0001_0010_0011#16 = .instr (.xorReg 1 2) ∧
    decodeWord 0b1000_0001_0010_0100#16 = .instr (.addReg 1 2) ∧ decodeWord 0b1000_0001_0010_0101#16 = .instr (.subReg 1 2) ∧
    decodeWord 0b1000_0001_0010_0110#16 = .instr (.shr 1 2) ∧ decodeWord 0b1000_0001_0010_0111#16 = .instr (.subnReg 1 2) ∧
    decodeWord 0b1000_0001_0010_1110#16 = .instr (.shl 1 2) ∧ decodeWord 0b1100_0011_0000_1111#16 = .instr (.rnd 3 0x0F) := by
  decide

theorem test_decode_index_memory :
    decodeWord 0b1010_0011_0000_0000#16 = .instr (.ldI 0x300) ∧ decodeWord 0b1111_0010_0001_1110#16 = .instr (.addI 2) ∧
    decodeWord 0b1111_1010_0010_1001#16 = .instr (.ldF 10) ∧ decodeWord 0b1111_0000_0011_0011#16 = .instr (.ldB 0) ∧
    decodeWord 0b1111_0001_0101_0101#16 = .instr (.ldMemVx 1) ∧ decodeWord 0b1111_0010_0110_0101#16 = .instr (.ldVxMem 2) := by
  decide

theorem test_decode_display_timers_keys :
    decodeWord 0b0000_0000_1110_0000#16 = .instr .cls ∧ decodeWord 0b1101_0000_0001_0101#16 = .instr (.drw 0 1 5) ∧
    decodeWord 0b1110_0010_1001_1110#16 = .instr (.skp 2) ∧ decodeWord 0b1110_0010_1010_0001#16 = .instr (.sknp 2) ∧
    decodeWord 0b1111_0100_0000_0111#16 = .instr (.ldVxDt 4) ∧ decodeWord 0b1111_0011_0000_1010#16 = .instr (.ldVxK 3) ∧
    decodeWord 0b1111_0001_0001_0101#16 = .instr (.ldDtVx 1) ∧ decodeWord 0b1111_0001_0001_1000#16 = .instr (.ldStVx 1) := by
  decide

/-- L2.1: words that match no row. -/
theorem test_decode_illegal :
    [0x0000, 0x0123, 0x00E1, 0x5121, 0x9121, 0x8128, 0x812F, 0xE19F, 0xF100, 0xF166].all
      (fun n => decodeWord (BitVec.ofNat 16 n) == .unknownInstruction (BitVec.ofNat 16 n)) = true := by decide

/-- The bytes of 0x22 0x04 in memory order, with a byte left over (R29). -/
theorem test_decode_bytes : decodeBytes [0x22, 0x04, 0xAA] = some (.instr (.call 0x204), [0xAA]) := by decide

theorem test_decode_truncated : decodeBytes [0x22] = none := by decide

theorem test_table_word : decodeTableWord 16 0x8124 = some (.addReg 1 2) ∧ decodeTableWord 16 0x5121 = none := by decide

/-- R52: the table has 34 rows. -/
theorem test_table_has_34_rows : opcodeRows.length = 34 := by decide

/-! ## One step on the spec's vectors -/

/-- The state after one step on the word `w` placed at PC. -/
def after (w : Nat) (s : State) : Option State :=
  match step (s.withFetchWord 16 w) with
  | .next t => some t
  | _ => none

/-- What the step on the word `w` placed at PC returns (R95). -/
def reportOf (w : Nat) (s : State) : Option StepReport := stepReport (s.withFetchWord 16 w)

/-- The reset state with V1 and V2 set. -/
def v12 (a b : Byte) : State := (State.reset.setV 1 a).setV 2 b

/-- V1 and VF after a step. -/
def v1f (o : Option State) : Option (Byte × Byte) := o.map fun t => (t.getV 1, t.getV 15)

/-- PC after a step. -/
def pcOf (o : Option State) : Option Word := o.map (·.pc)

/-- The bytes at 0x300, 0x301, 0x302 after a step. -/
def at300 (o : Option State) : Option (List Byte) := o.map fun t => t.readBytes 0x300 3

/-! ### Control flow (L2.2) -/

theorem test_ret : pcOf (after 0x00EE { State.reset with sp := 2, stack := State.reset.stack.set 1 0x346 }) = some 0x346 := by decide

theorem test_ret_underflow : (after 0x00EE State.reset).map (fun t => (t.pc, t.sp, t.fault)) =
    some (0x200, 0, some (.stackUnderflow 0x200)) := by decide

theorem test_jp : pcOf (after 0x1ABC State.reset) = some 0xABC := by decide

theorem test_call_at_depth_15 : (after 0x2345 { State.reset with sp := 15 }).map (fun t => (t.stackEntry 15, t.sp, t.pc)) =
    some (0x202, 16, 0x345) := by decide

theorem test_call_overflow : (after 0x2345 { State.reset with sp := 16 }).map (fun t => (t.pc, t.sp, t.fault)) =
    some (0x200, 16, some (.stackOverflow 0x200)) := by decide

theorem test_se_byte : pcOf (after 0x3342 (State.reset.setV 3 0x42)) = some 0x204 ∧
    pcOf (after 0x3342 (State.reset.setV 3 0x43)) = some 0x202 := by decide

theorem test_sne_byte : pcOf (after 0x4342 (State.reset.setV 3 0x43)) = some 0x204 ∧
    pcOf (after 0x4342 (State.reset.setV 3 0x42)) = some 0x202 := by decide

theorem test_se_reg : pcOf (after 0x5120 (v12 9 9)) = some 0x204 ∧ pcOf (after 0x5120 (v12 9 8)) = some 0x202 := by decide

theorem test_sne_reg : pcOf (after 0x9120 (v12 9 8)) = some 0x204 ∧ pcOf (after 0x9110 (v12 9 8)) = some 0x202 := by decide

theorem test_jp_v0_not_masked : pcOf (after 0xBFFF (State.reset.setV 0 0xFF)) = some 0x10FE := by decide

/-- L2.1: a skip at 0xFFE lands outside memory, and the next step's fetch faults there. -/
theorem test_skip_past_the_end : pcOf (after 0x3000 { State.reset with pc := 0xFFE }) = some 0x1002 ∧
    step { State.reset with pc := 0x1002 } =
      .next { State.reset with pc := 0x1002, fault := some (.outOfBoundsMemoryAccess 0x1002 0x1002) } := ⟨by decide, rfl⟩

/-- L2.1: a fetch at 0xFFF faults with 0x1000, the first address outside memory. -/
theorem test_fetch_at_FFF : step { State.reset with pc := 0xFFF } =
    .next { State.reset with pc := 0xFFF, fault := some (.outOfBoundsMemoryAccess 0xFFF 0x1000) } := rfl

/-- L1-12: 0x5121 is reported, PC advances, and nothing else changes. -/
theorem test_unknown : after 0x5121 State.reset = some ((State.reset.withFetchWord 16 0x5121).setPc 0x202) ∧
    reportOf 0x5121 State.reset = some (.nonFatal .unknownInstruction 0x200 0x5121) := by decide

/-! ### Register arithmetic (L1, L2.3) -/

theorem test_ld_byte_vf : (after 0x6F01 State.reset).map (·.getV 15) = some 0x01 := by decide

theorem test_add_byte_no_flag : (after 0x7003 (State.reset.setV 0 0xFE)).map (fun t => (t.getV 0, t.getV 15)) = some (0x01, 0) := by
  decide

theorem test_ld_reg_vf : (after 0x8F20 ((State.reset.setV 15 0x07).setV 2 0x09)).map (·.getV 15) = some 0x09 := by decide

theorem test_or : v1f (after 0x8121 ((v12 0x0F 0xF0).setV 15 0x55)) = some (0xFF, 0x55) := by decide

theorem test_and : v1f (after 0x8122 ((v12 0x3C 0x0F).setV 15 0x55)) = some (0x0C, 0x55) := by decide

theorem test_xor : v1f (after 0x8123 ((v12 0x3C 0x0F).setV 15 0x55)) = some (0x33, 0x55) := by decide

theorem test_add : v1f (after 0x8124 (v12 0xFF 0x01)) = some (0x00, 1) ∧ v1f (after 0x8124 (v12 0x80 0x7F)) = some (0xFF, 0) := by
  decide

theorem test_add_into_vf : (after 0x8F24 ((State.reset.setV 15 0xC8).setV 2 0x64)).map (·.getV 15) = some 0x01 := by decide

theorem test_sub : v1f (after 0x8125 (v12 0x05 0x0A)) = some (0xFB, 0) ∧ v1f (after 0x8125 (v12 0x33 0x33)) = some (0x00, 1) := by
  decide

theorem test_subn : v1f (after 0x8127 (v12 0x05 0x0A)) = some (0x05, 1) ∧ v1f (after 0x8127 (v12 0xFF 0x00)) = some (0x01, 0) := by
  decide

theorem test_shr : v1f (after 0x8126 (v12 0xA3 0xFF)) = some (0x51, 1) := by decide

theorem test_shl : v1f (after 0x812E (v12 0xA3 0xFF)) = some (0x46, 1) ∧ v1f (after 0x812E (v12 0x7F 0)) = some (0xFE, 0) := by decide

/-- L2.3: with kk = 0 the result is 0 whatever the draw. -/
theorem test_rnd_masked : exec (.rnd 3 0) State.reset = .next (State.reset.noteDraw.setV 3 0) := by
  simp [exec, execRnd]

/-! ### Index and memory (L1, L2.4) -/

theorem test_ld_i : (after 0xA300 State.reset).map (·.i) = some 0x300 := by decide

theorem test_add_i_wraps : (after 0xF21E ((State.reset.setI 0xFF0).setV 2 0x20)).map (fun t => (t.i, t.getV 15)) = some (0x010, 1) := by
  decide

theorem test_add_i_vf : (after 0xFF1E ((State.reset.setI 0x100).setV 15 0x05)).map (fun t => (t.i, t.getV 15)) = some (0x105, 0) := by
  decide

theorem test_ld_f_not_masked : (after 0xF029 (State.reset.setV 0 0xFF)).map (·.i) = some 0x4FB := by decide

/-- L1-6. -/
theorem test_bcd : at300 (after 0xF033 ((State.reset.setI 0x300).setV 0 0x9C)) = some [1, 5, 6] := by decide

theorem test_bcd_out_of_range : (after 0xF033 (State.reset.setI 0xFFE)).map (fun t => (t.pc, t.fault)) =
    some (0x200, some (.outOfBoundsMemoryAccess 0x200 0x1000)) := by decide

theorem test_store : at300 (after 0xF155 (((State.reset.setI 0x300).setV 0 1).setV 1 2)) = some [1, 2, 0] := by decide

theorem test_store_last_byte : (after 0xF055 ((State.reset.setI 0xFFF).setV 0 7)).map (fun t => (t.readByte 0xFFF, t.fault)) =
    some (7, none) := by decide

theorem test_load : (after 0xF265 ((State.reset.setI 0x300).writeBytes 0x300 [1, 5, 6, 9])).map
    (fun t => (t.getV 0, t.getV 1, t.getV 2, t.getV 3, t.i)) = some (1, 5, 6, 0, 0x300) := by decide

theorem test_load_out_of_range : (after 0xFF65 (State.reset.setI 0xFF1)).map (·.fault) =
    some (some (.outOfBoundsMemoryAccess 0x200 0x1000)) := by decide

/-! ### Display (L1, L2.5) -/

theorem test_cls : (after 0x00E0 ((State.reset.setFb (FrameBuffer.clear.toggle 5 7)).setV 15 1)).map
    (fun t => (t.fb.pixel 5 7, t.getV 15)) = some (false, 1) := by decide

/-- L1-8: columns 64 to 67 wrap to 0 to 3. -/
theorem test_draw_wraps : (after 0xD011 (((State.reset.setI 0x300).setV 0 60).writeBytes 0x300 [0xFF])).map
    (fun t => (t.fb[0], t.getV 15)) = some (0xF00000000000000F, 0) := by decide

/-- L2.5: start coordinates reduced modulo 64 and 32; the second pixel was set, so it is cleared and VF = 1. -/
theorem test_draw_collides : (after 0xD011 ((((State.reset.setFb (FrameBuffer.clear.toggle 10 1)).setI 0x300).setV 0 67).setV 1 33
      |>.writeBytes 0x300 [0x81])).map (fun t => (t.fb.pixel 3 1, t.fb.pixel 10 1, t.getV 15)) = some (true, false, 1) := by decide

/-! ### Timers and keys (L2.6) -/

/-- The reset state with a key held. -/
def withKey (k : Option Key) : State := State.reset.setKeyInput (.fixed k)

theorem test_skp : pcOf (after 0xE29E ((withKey (some 5)).setV 2 5)) = some 0x204 ∧
    pcOf (after 0xE29E ((withKey (some 0xF)).setV 2 0x1F)) = some 0x202 ∧ pcOf (after 0xE29E (withKey none)) = some 0x202 := by decide

theorem test_sknp : pcOf (after 0xE2A1 ((withKey none).setV 2 5)) = some 0x204 ∧
    pcOf (after 0xE2A1 ((withKey (some 5)).setV 2 5)) = some 0x202 := by decide

theorem test_ld_dt : (after 0xF407 (State.reset.setDt 0x3C)).map (·.getV 4) = some 0x3C := by decide

theorem test_wait_key : (after 0xF30A (withKey (some 0xB))).map (fun t => (t.getV 3, t.pc)) = some (0x0B, 0x202) := by decide

theorem test_wait_no_key : pcOf (after 0xF30A (withKey none)) = some 0x200 ∧ reportOf 0xF30A (withKey none) = some .blocked := by
  decide

theorem test_set_dt : (after 0xF115 (v12 60 0)).map (·.dt) = some 60 := by decide

theorem test_set_st : (after 0xF118 (v12 2 0)).map (fun t => (t.st, t.toneOn)) = some (2, false) := by decide

/-! ### Tick, reset, load (L2.6, L2.7) -/

theorem test_tick : ((State.reset.setDt 5).setSt 2).tick = { (State.reset.setDt 4).setSt 1 with toneOn := true } := by decide

theorem test_tick_stops_the_tone : (State.reset.setSt 1).tick.st = 0 ∧ (State.reset.setSt 1).tick.toneOn = false ∧
    tickRequest (State.reset.setSt 1) = .stopTone := by decide

theorem test_reset_font : State.reset.readBytes 0 5 = [0xF0, 0x90, 0x90, 0x90, 0xF0] ∧ State.reset.readByte 0x4F = 0x80 ∧
    State.reset.readByte 0x50 = 0 := by decide

theorem test_load_one_byte : (State.reset.load [0x12]).fetchWord = some 0x1200 := by decide

theorem test_fault_codes : FaultKind.unknownInstruction.code = 1 ∧ (Fault.stackOverflow 0).kind.code = 2 ∧
    FaultKind.loadTooLarge.code = 5 := by decide

/-- Writing back the value an unlisted address reads as removes the entry. -/
theorem test_memory_canonical : ((State.reset.writeBytes 0x300 [7]).writeBytes 0x300 [0]) = State.reset := by decide

/-- The printed forms of R50: a shift prints Vy only if it is not V0. -/
theorem test_listing : listingOf (.shr 1 0) = "SHR V1" ∧ listingOf (.shr 1 2) = "SHR V1, V2" ∧
    listingOf (.seByte 3 0x42) = "SE V3, 0x42" := ⟨rfl, rfl, rfl⟩

theorem test_listing_illegal : listingOfWord 0x5121 = ".word 0x5121" := by
  have h : decodeWord 0x5121 = .unknownInstruction 0x5121 := by decide
  rw [listingOfWord, h]
  rfl

/-! ## Witnesses: a state and operands that meet the hypotheses of each statement that has any -/

/-- The reset state with the word `w` at PC. -/
def placed (w : Nat) : State := State.reset.withFetchWord 16 w

theorem reset_inv : State.reset.Inv := by
  refine ⟨by decide, State.reset_mem_wf, by decide, by decide, by decide, by decide, fun a h => ?_, fun f h => ?_⟩
  · rw [List.eq_of_mem_replicate h]
    decide
  · cases h

theorem witness_ResetTwiceIsResetOnce : applyOp .reset State.reset = .next State.reset := rfl

theorem witness_LoadCopiesTheImage : ([0x12, 0x00] : List Byte).length ≤ 3584 := by decide

/-- The bound: 3584 bytes fit. -/
theorem witness_LoadCopiesTheImage_longest : (List.replicate 3584 (0 : Byte)).length ≤ 3584 := List.length_replicate.le

theorem witness_FirstStepAfterLoad : ([] : List Byte).length + 2 ≤ 3584 ∧
    decodeWord (wordOfBytes 0x12 0x00) = .instr (.jp 0x200) := by decide

theorem witness_LoadTooLarge : 3584 < (List.replicate 3585 (0 : Byte)).length := by
  rw [List.length_replicate]
  decide

theorem witness_Tick : State.reset.fault = none ∧ { State.reset with fault := some (.stackOverflow 0) : State }.fault ≠ none := by decide

theorem executes_placed_659C : Executes (placed 0x659C) (.ldByte 5 0x9C) := ⟨by decide, by decide, by decide⟩

theorem witness_IllegalWord : (placed 0x5121).fault = none ∧ (placed 0x5121).fetchWord = some 0x5121 ∧
    decodeWord 0x5121 = .unknownInstruction 0x5121 := by decide

theorem witness_Fetch : State.reset.pc.toNat ≤ 4094 ∧ 4094 < { State.reset with pc := 0xFFF : State }.pc.toNat := by decide

/-- A step that takes a fatal fault, and a faulted state an operation leaves. -/
theorem witness_FatalFault : (placed 0x00EE).fault = none ∧
    step (placed 0x00EE) = .next { placed 0x00EE with fault := some (.stackUnderflow 0x200) } ∧
    applyOp .reset { State.reset with fault := some (.stackUnderflow 0x200) } = .next State.reset := ⟨by decide, rfl, rfl⟩

theorem witness_FatalFaultsExactlyWhere : (placed 0x00EE).fault = none ∧
    (placed 0x00EE).sp ≤ (placed 0x00EE).params.stackDepth := by decide

theorem witness_EveryStepReturnsOneOutcome : State.reset.fault = none := by decide

theorem witness_SelfJump : goodEnd (placed 0x1200) :=
  ⟨by decide, 0x1200, 0x200, by decide, by decide, by decide⟩

theorem witness_StoredInstruction : State.reset.fault = none ∧ State.reset.pc.toNat ≤ 4094 := by decide

theorem witness_DecodeOfEncode : (Instr.drw 15 15 15).wellFormed = true := by decide

theorem witness_EncodeOfDecode : decodeWord 0x8126 = .instr (.shr 1 2) := by decide

theorem witness_Ret : 0 < { State.reset with sp := 1 : State }.sp ∧ State.reset.sp = 0 := by decide

/-- Both sides of the boundary: 15 live entries and 16. -/
theorem witness_Call : State.reset.stack.length = State.reset.params.stackDepth ∧
    { State.reset with sp := 15 : State }.sp < State.reset.params.stackDepth ∧
    { State.reset with sp := 16 : State }.sp = State.reset.params.stackDepth := by decide

theorem witness_CallThenRet : exec (.call 0x345) State.reset =
    .next { State.reset with pc := 0x345, sp := 1, stack := State.reset.stack.set 0 0x200 } := rfl

theorem witness_IndexLoads : State.reset.params.wellFormed = true := by decide

/-- The last start address in range and the first out of it. -/
theorem witness_Bcd : (State.reset.setI 0xFFD).i.toNat + 2 ≤ 4095 ∧ 4095 < (State.reset.setI 0xFFE).i.toNat + 2 := by decide

theorem witness_StoreLoadRegisters : (State.reset.setI 0xFF0).i.toNat + (15 : Reg).val ≤ 4095 ∧
    4095 < (State.reset.setI 0xFF1).i.toNat + (15 : Reg).val := by decide

theorem witness_Blit : ([0xFF] : List Byte).length ≤ 15 := by decide

/-- The bound of 15 rows, and the premise of the clear-screen clause. -/
theorem witness_DrawingTwice : (List.replicate 15 (0xFF : Byte)).length ≤ 15 ∧ State.reset.fb = FrameBuffer.clear := ⟨by decide, rfl⟩

/-- R82, R84 by hand: a one-bit sprite over a set pixel clears it with a collision, and the second draw sets it with none (log 26). -/
theorem test_second_draw_over_a_set_pixel :
    let fb := FrameBuffer.clear.toggle 5 7
    (blit [0x80] 5 7 fb).2 = true ∧ (blit [0x80] 5 7 (blit [0x80] 5 7 fb).1).2 = false := by decide

/-- In range at the edge, in range with no row at all, and out of range. -/
theorem witness_Draw : inRange (State.reset.setI 0xFF1).i.toNat (15 : RowCount).toNat ∧
    inRange (State.reset.setI 0xFFFF).i.toNat (0 : RowCount).toNat ∧
    ¬ inRange (State.reset.setI 0xFF2).i.toNat (15 : RowCount).toNat := by decide

theorem witness_KeySkips : (withKey (some 5)).keySnapshot = some 5 ∧ (5 : Key).toNat = ((withKey (some 5)).setV 2 5 |>.getV 2).toNat := by
  decide

theorem witness_KeyWait_key : (withKey (some 0xB)).keySnapshot = some 0xB := by decide

/-- Fx0A at PC with no key: blocked, and ticks can run. -/
theorem witness_KeyWait_none : Executes ((withKey none).withFetchWord 16 0xF30A) (.ldVxK 3) ∧
    ((withKey none).withFetchWord 16 0xF30A).keySnapshot = none ∧
    ((withKey none).withFetchWord 16 0xF30A).keyInput = .fixed none := ⟨⟨by decide, by decide, by decide⟩, by decide, by decide⟩

theorem witness_OnlyNamedRegisters : exec (.ldByte 5 1) State.reset = .next (State.reset.setV 5 1) ∧ ¬ writesReg (.ldByte 5 1) 6 :=
  ⟨rfl, by simp [writesReg]⟩

theorem witness_FlagInstructions : State.reset.fault = none ∧
    exec (.addReg 1 2) State.reset = .next (State.reset.setVThenFlag 1 0 0) := ⟨by decide, rfl⟩

theorem witness_OnlyBcdAndStore : exec (.ldMemVx 0) ((State.reset.setI 0x300).setV 0 7) =
      .next (((State.reset.setI 0x300).setV 0 7).writeBytes 0x300 [7]) ∧
    (((State.reset.setI 0x300).setV 0 7).writeBytes 0x300 [7]).readByte 0x300 ≠ ((State.reset.setI 0x300).setV 0 7).readByte 0x300 :=
  ⟨rfl, by decide⟩

theorem witness_OnlyRangeInstructions : rangeBytes (.seByte 0 0) = none ∧
    exec (.seByte 0 0) State.reset = .next (State.reset.setPc 0x202) := ⟨by decide, rfl⟩

theorem witness_SpecialRegisters : exec (.ldI 0x300) State.reset = .next (State.reset.setI 0x300) ∧
    (State.reset.setI 0x300).i ≠ State.reset.i := ⟨rfl, by decide⟩

theorem witness_ToneAndTimers : applyOp .tick60Hz (State.reset.setSt 2) = .next (State.reset.setSt 2).tick ∧
    (State.reset.setSt 2).tick.toneOn ≠ (State.reset.setSt 2).toneOn ∧ (State.reset.setSt 2).tick.st ≠ (State.reset.setSt 2).st :=
  ⟨rfl, by decide, by decide⟩

theorem witness_StepsAlone : NoTimerWrite 1 State.reset ∧ Host.Core.run Sys2Proof.core 1 State.reset = .next State.reset.preAdvance := by
  refine ⟨⟨fun x => ⟨fun h => ?_, fun h => ?_⟩, fun _ _ => trivial⟩, rfl⟩
  · have := h.2.2
    rw [show decodeWord _ = Decoded.unknownInstruction 0 from by decide] at this
    cases this
  · have := h.2.2
    rw [show decodeWord _ = Decoded.unknownInstruction 0 from by decide] at this
    cases this

theorem witness_OnlyKeyInstructions : ¬ readsKey (.jp 0) ∧ exec (.jp 0) State.reset = .next (State.reset.setPc 0) :=
  ⟨by simp [readsKey], rfl⟩

/-- The reset clause, from a state that does not meet the invariant. -/
theorem witness_Invariant_reset : { State.reset with sp := 17 }.params.wellFormed = true ∧ ¬ { State.reset with sp := 17 }.Inv :=
  ⟨by decide, fun h => absurd h.sp_le (by decide)⟩

theorem witness_Invariant : defaultParams.wellFormed = true ∧ State.reset.Inv ∧
    step State.reset = .next State.reset.preAdvance ∧ tick60Hz State.reset = .next State.reset.tick := ⟨by decide, reset_inv, rfl, rfl⟩

theorem witness_Reachable : Reachable State.reset.tick :=
  .op .tick60Hz State.reset _ (.constructed defaultParams (by decide)) rfl

end Sys2Proof.Tests
end

namespace Sys2Proof.Machine

variable {s t : State}

/-! ### What no instruction writes: the parameters (R3) and `toneOn` (R16) -/

/-- R32: a checked range keeps the parameters and `toneOn` whether or not it faults, when the effect it guards keeps them. -/
theorem State.withRange_keeps_params_toneOn {n : Nat} {done : State}
    (h : done.params = s.params ∧ done.toneOn = s.toneOn) :
    (s.withRange n done).params = s.params ∧ (s.withRange n done).toneOn = s.toneOn := by
  obtain ⟨-, e⟩ | ⟨-, e⟩ := s.withRange_cases n done
  · rwa [e]
  · simp [e]

/-- No instruction writes the parameters or `toneOn`. The four that can fault in a range check, and the two that can fault at a bound
of the stack, keep them on the faulting path too; the others are compositions of updates whose laws say it. -/
theorem exec_keeps_params_toneOn {i : Instr} (h : exec i s = .next t) :
    t.params = s.params ∧ t.toneOn = s.toneOn := by
  cases i <;> cases h
  case ret => split <;> simp
  case call => split <;> simp
  case drw | ldB | ldMemVx | ldVxMem => exact State.withRange_keeps_params_toneOn (by simp)
  all_goals simp

/-- A step keeps the parameters and `toneOn`, with an instruction, an illegal word or a fetch fault. -/
theorem step_keeps_params_toneOn (h : step s = .next t) : t.params = s.params ∧ t.toneOn = s.toneOn := by
  obtain ⟨-, ⟨-, rfl⟩ | ⟨_, _, -, -, rfl⟩ | ⟨_, _, -, -, he⟩⟩ := step_cases h
  · simp
  · simp
  · simpa using exec_keeps_params_toneOn he

/-! ### The host's operations -/

@[simp] theorem State.load_params (image : List Byte) : (s.load image).params = s.params := by
  unfold State.load; split <;> simp

@[simp] theorem State.load_toneOn (image : List Byte) : (s.load image).toneOn = s.toneOn := by
  unfold State.load; split <;> simp

/-- R97, R94: a tick with a next state starts with no fault, and leaves `State.tick`. -/
theorem tick60Hz_cases (h : tick60Hz s = .next t) : s.fault = none ∧ t = s.tick := by
  unfold tick60Hz at h
  split at h
  · cases h
  · next hf => cases h; exact ⟨hf, rfl⟩

end Sys2Proof.Machine

namespace Sys2Proof.Claims

open Sys2Proof.Machine

/-- Settles O50: one case for each of the host's operations; a step keeps both fields whatever it executes. -/
theorem onlyTheTickWritesToneOn : Obligations.OnlyTheTickWritesToneOn := by
  intro op s t h
  cases op with
  | reset => cases h; simp
  | load image => cases h; simp
  | step =>
    obtain ⟨hp, ht⟩ := step_keeps_params_toneOn h
    exact ⟨hp, fun hne => absurd ht hne⟩
  | tick60Hz =>
    obtain ⟨-, rfl⟩ := tick60Hz_cases h
    simp
  | setKeyInput k => cases h; simp

end Sys2Proof.Claims

namespace Sys2Proof.Machine

variable {s t : State}

/-! ### What a checked range does to each field (R32) -/

@[simp] theorem State.withRange_i (n : Nat) (done : State) :
    (s.withRange n done).i = if inRange s.i.toNat n then done.i else s.i := apply_ite State.i _ _ _
@[simp] theorem State.withRange_stack (n : Nat) (done : State) :
    (s.withRange n done).stack = if inRange s.i.toNat n then done.stack else s.stack := apply_ite State.stack _ _ _
@[simp] theorem State.withRange_sp (n : Nat) (done : State) :
    (s.withRange n done).sp = if inRange s.i.toNat n then done.sp else s.sp := apply_ite State.sp _ _ _
@[simp] theorem State.withRange_fb (n : Nat) (done : State) :
    (s.withRange n done).fb = if inRange s.i.toNat n then done.fb else s.fb := apply_ite State.fb _ _ _

/-- R32: a register that the effect keeps is kept, whether or not the range is in memory. -/
theorem State.getV_withRange {n : Nat} {done : State} {r : Reg} (h : done.getV r = s.getV r) :
    (s.withRange n done).getV r = s.getV r := by
  obtain ⟨-, e⟩ | ⟨-, e⟩ := s.withRange_cases n done
  · rw [e, h]
  · rw [e]; rfl

/-- R94: where no fault stands afterwards, the range was in memory and the effect was carried out. -/
theorem State.withRange_of_fault_none {n : Nat} {done : State} (h : (s.withRange n done).fault = none) :
    s.withRange n done = done := by
  obtain ⟨-, e⟩ | ⟨-, e⟩ := s.withRange_cases n done
  · exact e
  · rw [e] at h; cases h

/-! ### General registers under the updates that do not write them (R8, R9) -/

@[simp] theorem State.getV_setI (a : Word) (r : Reg) : (s.setI a).getV r = s.getV r := rfl
@[simp] theorem State.getV_setPc (a : Word) (r : Reg) : (s.setPc a).getV r = s.getV r := rfl
@[simp] theorem State.getV_setDt (b : Byte) (r : Reg) : (s.setDt b).getV r = s.getV r := rfl
@[simp] theorem State.getV_setSt (b : Byte) (r : Reg) : (s.setSt b).getV r = s.getV r := rfl
@[simp] theorem State.getV_setFb (fb : FrameBuffer) (r : Reg) : (s.setFb fb).getV r = s.getV r := rfl
@[simp] theorem State.getV_push (a : Word) (r : Reg) : (s.push a).getV r = s.getV r := rfl
@[simp] theorem State.getV_popToPc (r : Reg) : s.popToPc.getV r = s.getV r := rfl
@[simp] theorem State.getV_noteKeyRead (r : Reg) : s.noteKeyRead.getV r = s.getV r := rfl
@[simp] theorem State.getV_raiseInExec (f : Word → Fault) (r : Reg) : (s.raiseInExec f).getV r = s.getV r := rfl

theorem State.getV_takeKey_other {x r : Reg} (k : Option Key) (h : r ≠ x) : (s.takeKey x k).getV r = s.getV r := by
  cases k with
  | none => rfl
  | some k => exact s.getV_setV_other _ h

theorem State.getV_setVThenFlag_other {x r : Reg} (b f : Byte) (h : ¬ (r = x ∨ r = 15)) :
    (s.setVThenFlag x b f).getV r = s.getV r := by
  obtain ⟨hx, hvf⟩ := not_or.mp h
  rw [s.getV_setVThenFlag b f hvf, if_neg hx]

/-! ### Flags are 0 or 1 (R9) -/

theorem shiftedOutLow_cases (a : Byte) : shiftedOutLow a = 0 ∨ shiftedOutLow a = 1 := by
  have h := shiftedOutLow_toNat a
  bv_omega

theorem shiftedOutHigh_cases (a : Byte) : shiftedOutHigh a = 0 ∨ shiftedOutHigh a = 1 := by
  have h := shiftedOutHigh_toNat a
  bv_omega

theorem State.vf_setVThenFlag_cases {x : Reg} {b f : Byte} (h : f = 0 ∨ f = 1) :
    (s.setVThenFlag x b f).getV 15 = 0 ∨ (s.setVThenFlag x b f).getV 15 = 1 := by
  rwa [State.getV_setVThenFlag_vf]

theorem State.vf_setV_cases {f : Byte} (h : f = 0 ∨ f = 1) :
    (s.setV Reg.vf f).getV 15 = 0 ∨ (s.setV Reg.vf f).getV 15 = 1 := by
  rwa [State.getV_setV_same]

/-! ### Memory and the stack after a reset (R19) -/

theorem resetByte_font (p : Params) {a : Nat} (h : a < 80) : resetByte p (p.fontBase + a) = p.fontGlyphs.getD a 0 := by
  have hin : p.fontBase ≤ p.fontBase + a ∧ p.fontBase + a < p.fontBase + 80 := by omega
  rw [resetByte, if_pos hin, Nat.add_sub_cancel_left]

theorem resetByte_outside_font (p : Params) {a : Nat} (h : a < p.fontBase ∨ p.fontBase + 80 ≤ a) : resetByte p a = 0 := by
  have hout : ¬ (p.fontBase ≤ a ∧ a < p.fontBase + 80) := by omega
  rw [resetByte, if_neg hout]

theorem State.getV_resetCore (r : Reg) : s.resetCore.getV r = 0 := by simp [State.getV]

theorem State.stackEntry_resetCore (j : Nat) : s.resetCore.stackEntry j = 0 :=
  List.getElem?_getD_replicate_default_eq _ _ _

/-! ### The invariant (R24): what establishes it, and what each operation needs to keep it -/

theorem State.constructed_inv {p : Params} (h : p.wellFormed = true) : (State.constructed p).Inv where
  params_ok := h
  mem_wf := State.constructed_mem_wf p
  stack_len := List.length_replicate
  sp_le := Nat.zero_le _
  i_le := Nat.zero_le _
  pc_le := show (0x200 : Word).toNat ≤ 0x10FE by decide
  stack_le a ha := by rw [List.eq_of_mem_replicate ha]; decide
  fault_pc f hf := by cases hf

/-- The invariant bounds neither V, the timers, the framebuffer, `toneOn` nor the free inputs: their types do (R24). -/
theorem State.Inv.of_same_bounded_fields (h : s.Inv)
    (e : t = { s with v := t.v, dt := t.dt, st := t.st, fb := t.fb, toneOn := t.toneOn, keyInput := t.keyInput,
                      keyReads := t.keyReads, randomDraws := t.randomDraws }) : t.Inv := by
  rw [e]
  exact ⟨h.params_ok, h.mem_wf, h.stack_len, h.sp_le, h.i_le, h.pc_le, h.stack_le, h.fault_pc⟩

theorem State.resetCore_inv (h : s.params.wellFormed = true) : s.resetCore.Inv :=
  (State.constructed_inv h).of_same_bounded_fields rfl

theorem State.Inv.tick (h : s.Inv) : s.tick.Inv := h.of_same_bounded_fields rfl

theorem State.Inv.setI (h : s.Inv) {a : Word} (ha : a.toNat ≤ 0xFFF) : (s.setI a).Inv :=
  ⟨h.params_ok, h.mem_wf, h.stack_len, h.sp_le, ha, h.pc_le, h.stack_le, h.fault_pc⟩

/-- The premise on the record: one already taken would stay behind at another PC (R17). -/
theorem State.Inv.setPc (h : s.Inv) (hf : s.fault = none) {a : Word} (ha : a.toNat ≤ 0x10FE) : (s.setPc a).Inv where
  __ := h
  pc_le := ha
  fault_pc f hs := by rw [State.setPc_fault, hf] at hs; cases hs

theorem State.Inv.takeFault (h : s.Inv) {pc : Word} {f : Word → Fault} (hpc : pc.toNat ≤ 0x10FE) (hf : (f pc).pc = pc) :
    (s.takeFault pc f).Inv where
  __ := h
  pc_le := hpc
  fault_pc g hg := by cases hg; exact hf

theorem State.Inv.writeBytes (h : s.Inv) {a : Nat} {bs : List Byte} (ha : bs = [] ∨ a + bs.length ≤ 4096) :
    (s.writeBytes a bs).Inv :=
  ⟨h.params_ok, Memory.wf_writeBytes bs a ha h.mem_wf, h.stack_len, h.sp_le, h.i_le, h.pc_le, h.stack_le, h.fault_pc⟩

theorem State.Inv.push (h : s.Inv) {a : Word} (hsp : s.sp < s.params.stackDepth) (ha : a.toNat ≤ 0x1000) :
    (s.push a).Inv where
  __ := h
  stack_len := by rw [State.push_stack, List.length_set]; exact h.stack_len
  sp_le := hsp
  stack_le b hb := (List.mem_or_eq_of_mem_set hb).elim (h.stack_le b) (fun e => e ▸ ha)

theorem State.Inv.stackEntry_le (h : s.Inv) (j : Nat) : (s.stackEntry j).toNat ≤ 0x1000 := by
  rcases Nat.lt_or_ge j s.stack.length with hj | hj
  · rw [State.stackEntry, List.getD_eq_getElem _ _ hj]; exact h.stack_le _ (List.getElem_mem hj)
  · rw [State.stackEntry, List.getD_eq_default _ _ hj]; decide

theorem State.Inv.popToPc (h : s.Inv) (hf : s.fault = none) : s.popToPc.Inv where
  __ := h
  sp_le := (Nat.sub_le _ _).trans h.sp_le
  pc_le := (h.stackEntry_le _).trans (by decide)
  fault_pc f hs := by rw [State.popToPc_fault, hf] at hs; cases hs

/-- R112: an image that fits ends below 4096, since 0x200 + 3584 = 4096. -/
theorem State.Inv.load (h : s.Inv) (image : List Byte) : (s.load image).Inv := by
  by_cases hfit : imageFits image = true
  · rw [State.load_of_fits s image hfit]
    have hlen : image.length ≤ 3584 := of_decide_eq_true hfit
    exact (State.resetCore_inv h.params_ok).writeBytes (.inr (by simp only [Config.loadOffset]; omega))
  · rwa [State.load_of_not_fits s image (Bool.eq_false_iff.mpr hfit)]

/-! ### An instruction keeps the invariant (R24, R45) -/

/-- The states an instruction executes in: the invariant after the pre-advance of a fetch that succeeded (R45). -/
structure State.InExec (s : State) : Prop where
  inv        : s.Inv
  fault_none : s.fault = none
  two_le_pc  : 2 ≤ s.pc.toNat
  pc_le      : s.pc.toNat ≤ 0x1000

theorem State.pc_le_of_fetchWord {w : Word} (h : s.fetchWord = some w) : s.pc.toNat ≤ 4094 := by
  by_contra hpc
  rw [s.fetchWord_eq_none (by omega)] at h
  cases h

theorem State.Inv.preAdvance_inExec (h : s.Inv) (hf : s.fault = none) (hpc : s.pc.toNat ≤ 4094) : s.preAdvance.InExec where
  inv := h.setPc hf (a := s.pc + 2) (by bv_omega)
  fault_none := hf
  two_le_pc := by rw [State.preAdvance_pc]; bv_omega
  pc_le := by rw [State.preAdvance_pc]; bv_omega

/-- The fetch address is again a PC within the bound. -/
theorem State.InExec.fetch_pc_le (h : s.InExec) : (s.pc - 2).toNat ≤ 0x10FE := by
  have hlo := h.two_le_pc
  have hhi := h.pc_le
  bv_omega

theorem State.InExec.setPc (h : s.InExec) {a : Word} (ha : a.toNat ≤ 0x10FE) : (s.setPc a).Inv :=
  h.inv.setPc h.fault_none ha

theorem State.InExec.skipIf (h : s.InExec) (c : Prop) [Decidable c] : (s.skipIf c).Inv := by
  have hpc := h.pc_le
  unfold State.skipIf
  split
  · exact h.setPc (by bv_omega)
  · exact h.inv

theorem State.InExec.raiseInExec (h : s.InExec) {f : Word → Fault} (hf : ∀ pc, (f pc).pc = pc) : (s.raiseInExec f).Inv :=
  h.inv.takeFault h.fetch_pc_le (hf _)

theorem State.InExec.withRange (h : s.InExec) {n : Nat} {done : State} (hdone : inRange s.i.toNat n → done.Inv) :
    (s.withRange n done).Inv := by
  obtain ⟨hin, e⟩ | ⟨-, e⟩ := s.withRange_cases n done
  · rw [e]; exact hdone hin
  · rw [e]; exact h.raiseInExec fun _ => rfl

theorem State.InExec.noteKeyRead (h : s.InExec) : s.noteKeyRead.InExec :=
  ⟨h.inv.of_same_bounded_fields rfl, h.fault_none, h.two_le_pc, h.pc_le⟩

theorem State.InExec.takeKey (h : s.InExec) (x : Reg) (k : Option Key) : (s.takeKey x k).Inv := by
  cases k with
  | none => exact h.setPc h.fetch_pc_le
  | some k => exact h.inv.of_same_bounded_fields rfl

theorem zextAddr_le (nnn : Addr12) : (zextAddr nnn).toNat ≤ 0xFFF := by
  have h := nnn.isLt
  rw [zextAddr_toNat]
  omega

/-- R77: the glyph of any byte, digit or not, lies at most at 0x6AB. -/
theorem glyphAddress_le {p : Params} (h : p.wellFormed = true) (a : Byte) : (glyphAddress p a).toNat ≤ 0xFFF := by
  have ha := a.isLt
  have hb := Params.fontBase_le h
  rw [glyphAddress_toNat p a h]
  omega

theorem indexSum_le (i : Word) (a : Byte) : (indexSum i a).toNat ≤ 0xFFF := by
  rw [indexSum_toNat]
  omega

/-- R60: this jump reaches furthest, to 0xFFF + 0xFF. -/
theorem offsetTarget_le (nnn : Addr12) (a : Byte) : (offsetTarget nnn a).toNat ≤ 0x10FE := by
  have h := nnn.isLt
  have h' := a.isLt
  rw [offsetTarget_toNat]
  omega

/-- R4, R32: a range in memory ends below 4096. -/
theorem writable_of_inRange {a n : Nat} {bs : List Byte} (h : inRange a n) (hlen : bs.length = n) :
    bs = [] ∨ a + bs.length ≤ 4096 := by
  obtain h0 | h := h
  · exact .inl (List.eq_nil_of_length_eq_zero (hlen.trans h0))
  · exact .inr (by omega)

/-- One case for each way an instruction can touch what the invariant bounds: PC, the stack, I, memory behind a range check. Every
other instruction writes registers, timers, the framebuffer or the counters of free inputs alone. -/
theorem exec_keeps_inv {i : Instr} (hs : s.InExec) (h : exec i s = .next t) : t.Inv := by
  cases i <;> cases h
  case ret =>
    split
    · exact hs.raiseInExec fun _ => rfl
    · exact hs.inv.popToPc hs.fault_none
  case call nnn =>
    split
    · next hsp => exact (hs.inv.push hsp hs.pc_le).setPc hs.fault_none ((zextAddr_le nnn).trans (by decide))
    · exact hs.raiseInExec fun _ => rfl
  case jp nnn => exact hs.setPc ((zextAddr_le nnn).trans (by decide))
  case jpV0 nnn => exact hs.setPc (offsetTarget_le nnn _)
  case seByte | sneByte | seReg | sneReg => exact hs.skipIf _
  case skp | sknp => exact hs.noteKeyRead.skipIf _
  case ldVxK x => exact hs.noteKeyRead.takeKey x _
  case ldI nnn => exact hs.inv.setI (zextAddr_le nnn)
  case ldF x => exact hs.inv.setI (glyphAddress_le hs.inv.params_ok _)
  case addI x => exact (hs.inv.setI (indexSum_le _ _)).of_same_bounded_fields rfl
  case ldB x => exact hs.withRange fun hin => hs.inv.writeBytes (writable_of_inRange hin rfl)
  case ldMemVx x => exact hs.withRange fun hin => hs.inv.writeBytes (writable_of_inRange hin (length_regsUpTo s x))
  case drw | ldVxMem => exact hs.withRange fun _ => hs.inv.of_same_bounded_fields rfl
  all_goals exact hs.inv.of_same_bounded_fields rfl

theorem step_keeps_inv (hs : s.Inv) (h : step s = .next t) : t.Inv := by
  obtain ⟨hf, ⟨-, rfl⟩ | ⟨_, _, hw, -, rfl⟩ | ⟨_, _, hw, -, he⟩⟩ := step_cases h
  · exact hs.takeFault hs.pc_le rfl
  · exact (hs.preAdvance_inExec hf (State.pc_le_of_fetchWord hw)).inv
  · exact exec_keeps_inv (hs.preAdvance_inExec hf (State.pc_le_of_fetchWord hw)) he

theorem tick60Hz_keeps_inv (hs : s.Inv) (h : tick60Hz s = .next t) : t.Inv := by
  obtain ⟨-, rfl⟩ := tick60Hz_cases h
  exact hs.tick

theorem applyOp_keeps_inv {op : HostOp} (hs : s.Inv) (h : applyOp op s = .next t) : t.Inv := by
  cases op with
  | reset => cases h; exact State.resetCore_inv hs.params_ok
  | load image => cases h; exact hs.load image
  | step => exact step_keeps_inv hs h
  | tick60Hz => exact tick60Hz_keeps_inv hs h
  | setKeyInput k => cases h; exact hs.of_same_bounded_fields rfl

/-! ### Who writes what (R8 to R10, R12, R13, R15) -/

/-- R8, R9: the law of each register write, at a register that the instruction does not write. -/
theorem getV_exec_of_not_writesReg {i : Instr} {r : Reg} (h : exec i s = .next t) (hr : ¬ Claims.writesReg i r) :
    t.getV r = s.getV r := by
  cases i <;> cases h
  case ldByte | addByte | ldReg | orReg | andReg | xorReg | ldVxDt => exact s.getV_setV_other _ hr
  case addReg | subReg | shr | subnReg | shl => exact State.getV_setVThenFlag_other _ _ hr
  case rnd => exact s.noteDraw.getV_setV_other _ hr
  case ldVxK => exact State.getV_takeKey_other _ hr
  case addI => exact (s.setI _).getV_setV_other _ hr
  case drw => exact State.getV_withRange ((s.setFb _).getV_setV_other _ hr)
  case ldVxMem => exact State.getV_withRange ((s.getV_loadRegs _ _ _).trans (if_neg hr))
  case ldB | ldMemVx => exact State.getV_withRange rfl
  case ret | call => split <;> simp
  all_goals simp

end Sys2Proof.Machine

namespace Sys2Proof.Claims

open Sys2Proof.Machine

/-- Settles O54: construction and reset establish the invariant; a step keeps it by the cases of `exec_keeps_inv`. -/
theorem everyStepAndTickKeepsTheInvariant : Obligations.EveryStepAndTickKeepsTheInvariant :=
  ⟨fun _ hp => State.constructed_inv hp, fun _ hp => State.resetCore_inv hp,
    fun _ _ hs h => h.elim (step_keeps_inv hs) (tick60Hz_keeps_inv hs)⟩

/-- Settles O55: the reset state is the core constructed with the default parameters, which are within bounds. -/
theorem resetStateMeetsTheInvariant : Obligations.ResetStateMeetsTheInvariant :=
  State.constructed_inv (p := defaultParams) (by decide)

/-- Settles O56, by induction on how the state is reached. -/
theorem reachableStatesMeetTheInvariant : Obligations.ReachableStatesMeetTheInvariant := by
  intro s hs
  induction hs with
  | constructed p hp => exact State.constructed_inv hp
  | op o s t _ h ih => exact applyOp_keeps_inv ih h

/-- Settles O45, by `getV_exec_of_not_writesReg`. -/
theorem onlyNamedRegistersChange : Obligations.OnlyNamedRegistersChange :=
  fun _ _ _ _ h hr => getV_exec_of_not_writesReg h hr

/-- Settles O46: the flag is written last, and every flag is 0 or 1. -/
theorem flagInstructionsLeaveZeroOrOneInVf : Obligations.FlagInstructionsLeaveZeroOrOneInVf := by
  intro i s t _ h ht hflag
  cases i <;> cases h
  case addReg | subReg | subnReg => exact State.vf_setVThenFlag_cases (flagByte_cases _)
  case shr => exact State.vf_setVThenFlag_cases (shiftedOutLow_cases _)
  case shl => exact State.vf_setVThenFlag_cases (shiftedOutHigh_cases _)
  case addI => exact State.vf_setV_cases (flagByte_cases _)
  case drw =>
    rw [State.withRange_of_fault_none ht]
    exact State.vf_setV_cases (flagByte_cases _)
  all_goals exact hflag.elim

/-- Settles O49: in each case the updates' laws give back the fields that the instruction does not write. -/
theorem eachSpecialRegisterHasItsWriters : Obligations.EachSpecialRegisterHasItsWriters := by
  intro i s t h
  cases i <;> cases h
  case ret | call => split <;> simp
  all_goals simp

/-- Settles O1: field by field, from the laws of `resetCore` and the bytes memory holds after a reset. -/
theorem resetGivesTheResetValues : Obligations.ResetGivesTheResetValues := by
  refine ⟨fun s => ⟨s.resetCore, rfl, ?_⟩, fun p => ⟨rfl, rfl, rfl⟩⟩
  exact ⟨fun _ ha => resetByte_font s.params ha, fun _ ha => resetByte_outside_font s.params ha, State.getV_resetCore,
    rfl, rfl, by simp, State.stackEntry_resetCore, rfl, rfl, rfl, FrameBuffer.pixel_clear, rfl, rfl⟩

end Sys2Proof.Claims

namespace Sys2Proof

/-! ### The fields of an encoded word (R41) -/

theorem fieldO_encodeA {o : Nat} (nnn : Addr12) (h : o < 16) : fieldO (encodeA o nnn) = o := by
  have := nnn.isLt
  simp only [fieldO, field, encodeA_toNat o nnn h]; omega

theorem fieldNNN_encodeA {o : Nat} (nnn : Addr12) (h : o < 16) : fieldNNN (encodeA o nnn) = nnn := by
  apply BitVec.eq_of_toNat_eq
  have := nnn.isLt
  simp only [fieldNNN, field, encodeA_toNat o nnn h, BitVec.toNat_ofNat]; omega

theorem fieldO_encodeXK {o : Nat} (x : Reg) (kk : Byte) (h : o < 16) : fieldO (encodeXK o x kk) = o := by
  have := kk.isLt
  simp only [fieldO, field, encodeXK_toNat o x kk h]; omega

theorem fieldX_encodeXK {o : Nat} (x : Reg) (kk : Byte) (h : o < 16) : fieldX (encodeXK o x kk) = x := by
  apply Fin.ext
  have := kk.isLt
  simp only [fieldX, field, encodeXK_toNat o x kk h, Fin.val_ofNat]; omega

theorem fieldKK_encodeXK {o : Nat} (x : Reg) (kk : Byte) (h : o < 16) : fieldKK (encodeXK o x kk) = kk := by
  apply BitVec.eq_of_toNat_eq
  have := kk.isLt
  simp only [fieldKK, field, encodeXK_toNat o x kk h, BitVec.toNat_ofNat]; omega

theorem fieldO_encodeXY {o z : Nat} (x y : Reg) (h : o < 16) (hz : z < 16) : fieldO (encodeXY o x y z) = o := by
  simp only [fieldO, field, encodeXY_toNat o x y z h hz]; omega

theorem fieldX_encodeXY {o z : Nat} (x y : Reg) (h : o < 16) (hz : z < 16) : fieldX (encodeXY o x y z) = x := by
  apply Fin.ext
  simp only [fieldX, field, encodeXY_toNat o x y z h hz, Fin.val_ofNat]; omega

theorem fieldY_encodeXY {o z : Nat} (x y : Reg) (h : o < 16) (hz : z < 16) : fieldY (encodeXY o x y z) = y := by
  apply Fin.ext
  simp only [fieldY, field, encodeXY_toNat o x y z h hz, Fin.val_ofNat]; omega

theorem fieldZ_encodeXY {o z : Nat} (x y : Reg) (h : o < 16) (hz : z < 16) : fieldZ (encodeXY o x y z) = z := by
  simp only [fieldZ, field, encodeXY_toNat o x y z h hz]; omega

theorem fieldN_encodeXY {o : Nat} (x y : Reg) (n : RowCount) (h : o < 16) : fieldN (encodeXY o x y n.toNat) = n := by
  apply BitVec.eq_of_toNat_eq
  have hn := n.isLt
  simp only [fieldN, field, encodeXY_toNat o x y n.toNat h hn, BitVec.toNat_ofNat]; omega

theorem fieldO_encodeX {o sub : Nat} (x : Reg) (h : o < 16) (hs : sub < 256) : fieldO (encodeX o x sub) = o := by
  simp only [fieldO, field, encodeX_toNat o x sub h hs]; omega

theorem fieldX_encodeX {o sub : Nat} (x : Reg) (h : o < 16) (hs : sub < 256) : fieldX (encodeX o x sub) = x := by
  apply Fin.ext
  simp only [fieldX, field, encodeX_toNat o x sub h hs, Fin.val_ofNat]; omega

theorem fieldSub_encodeX {o sub : Nat} (x : Reg) (h : o < 16) (hs : sub < 256) : fieldSub (encodeX o x sub) = sub := by
  simp only [fieldSub, field, encodeX_toNat o x sub h hs]; omega

/-! ### Decoding an encoded word (R43) -/

/-- The two words matched as a whole are of family 0, so any other family decodes by its family alone. -/
theorem decodeWord_of_fieldO {w : Word} {o : Nat} (h : fieldO w = o) (ho : 0 < o) : decodeWord w = decodeFamily w := by
  have hcls : w ≠ 0x00E0#16 := by rintro rfl; exact absurd h (show 0 ≠ o by omega)
  have hret : w ≠ 0x00EE#16 := by rintro rfl; exact absurd h (show 0 ≠ o by omega)
  rw [decodeWord, if_neg hcls, if_neg hret]

/-- R43: by format, the family and the sub-opcode select the arm, and the other fields are the operands. -/
theorem decodeWord_encode (i : Instr) : decodeWord (encode i) = .instr i := by
  cases i <;> rw [encode]
  case cls | ret => rfl
  case jp | call | ldI | jpV0 =>
    rw [decodeWord_of_fieldO (fieldO_encodeA _ (by decide)) (by decide)]
    simp [decodeFamily, fieldO_encodeA, fieldNNN_encodeA]
  case seByte | sneByte | ldByte | addByte | rnd =>
    rw [decodeWord_of_fieldO (fieldO_encodeXK _ _ (by decide)) (by decide)]
    simp [decodeFamily, fieldO_encodeXK, fieldX_encodeXK, fieldKK_encodeXK]
  case drw x y n =>
    have hn : n.toNat < 16 := n.isLt
    rw [decodeWord_of_fieldO (fieldO_encodeXY _ _ (by decide) hn) (by decide)]
    simp [decodeFamily, fieldO_encodeXY, fieldX_encodeXY, fieldY_encodeXY, fieldN_encodeXY, hn]
  case skp | sknp =>
    rw [decodeWord_of_fieldO (fieldO_encodeX _ (by decide) (by decide)) (by decide)]
    simp [decodeFamily, decodeFamilyE, fieldO_encodeX, fieldX_encodeX, fieldSub_encodeX]
  case ldVxDt | ldVxK | ldDtVx | ldStVx | addI | ldF | ldB | ldMemVx | ldVxMem =>
    rw [decodeWord_of_fieldO (fieldO_encodeX _ (by decide) (by decide)) (by decide)]
    simp [decodeFamily, decodeFamilyF, fieldO_encodeX, fieldX_encodeX, fieldSub_encodeX]
  case seReg | sneReg | ldReg | orReg | andReg | xorReg | addReg | subReg | shr | subnReg | shl =>
    rw [decodeWord_of_fieldO (fieldO_encodeXY _ _ (by decide) (by decide)) (by decide)]
    simp [decodeFamily, decodeFamily8, fieldO_encodeXY, fieldX_encodeXY, fieldY_encodeXY, fieldZ_encodeXY]

end Sys2Proof

namespace Sys2Proof.Machine

variable {s t : State}

/-! ### Storing the word the next step fetches (R37, R39) -/

/-- R37: the two bytes of a word stored at PC are the word fetched. -/
theorem State.fetchWord_writeBytes_pc (w : Word) (hpc : s.pc.toNat ≤ 4094) (hwf : s.mem.wf s.params) :
    (s.writeBytes s.pc.toNat [highByte w, lowByte w]).fetchWord = some w := by
  have read (j : Nat) (hj : j < 2) := State.readByte_writeBytes_inside (s := s) [highByte w, lowByte w] s.pc.toNat j
    hj (show s.pc.toNat + 2 ≤ 4096 by omega) hwf
  have hhi : (s.writeBytes s.pc.toNat [highByte w, lowByte w]).readByte s.pc.toNat = highByte w := read 0 (by decide)
  have hlo : (s.writeBytes s.pc.toNat [highByte w, lowByte w]).readByte (s.pc.toNat + 1) = lowByte w :=
    read 1 (by decide)
  rw [State.fetchWord_eq_some (s.writeBytes _ _) hpc, State.writeBytes_pc, hhi, hlo, wordOfBytes_highByte_lowByte]

/-! ### Which instructions write memory (R26, R34) -/

@[simp] theorem State.withRange_mem (n : Nat) (done : State) :
    (s.withRange n done).mem = if inRange s.i.toNat n then done.mem else s.mem := apply_ite State.mem _ _ _

/-- R26: an instruction other than Fx33 and Fx55 leaves memory as it is. -/
theorem exec_keeps_mem {i : Instr} (hB : ∀ x, i ≠ .ldB x) (hStore : ∀ x, i ≠ .ldMemVx x) (h : exec i s = .next t) :
    t.mem = s.mem := by
  cases i <;> cases h
  case ldB x => exact absurd rfl (hB x)
  case ldMemVx x => exact absurd rfl (hStore x)
  case ret | call => split <;> simp
  all_goals simp

/-- What a byte reads as depends on memory and, where it is not listed, on the parameters (R19): no instruction writes those. -/
theorem readByte_exec_of_mem_eq {i : Instr} (h : exec i s = .next t) (hm : t.mem = s.mem) (a : Nat) :
    t.readByte a = s.readByte a := by
  obtain ⟨hp, -⟩ := exec_keeps_params_toneOn h
  rw [State.readByte, State.readByte, hm, hp]

/-- R32, R34: a byte that a checked write changes lies in the range written. -/
theorem State.in_range_of_readByte_withRange_writeBytes_ne {n a : Nat} {bs : List Byte}
    (h : (s.withRange n (s.writeBytes s.i.toNat bs)).readByte a ≠ s.readByte a) :
    s.i.toNat ≤ a ∧ a < s.i.toNat + bs.length := by
  obtain ⟨-, e⟩ | ⟨-, e⟩ := s.withRange_cases n (s.writeBytes s.i.toNat bs)
  · rw [e] at h
    by_contra hout
    exact h (State.readByte_writeBytes_outside bs (by omega))
  · rw [e] at h
    exact absurd rfl h

/-! ### Which instructions read memory (R26) -/

/-- The state with memory `m` in place of its own. -/
def State.withMem (m : Memory) (s : State) : State := { s with mem := m }

/-- A skip looks at its condition alone, not at the word it passes over (R49). -/
theorem State.skipIf_withMem (c : Prop) [Decidable c] (m : Memory) :
    (s.withMem m).skipIf c = (s.skipIf c).withMem m := by
  rw [State.skipIf, State.skipIf, apply_ite (State.withMem m)]; rfl

theorem State.takeKey_withMem (x : Reg) (k : Option Key) (m : Memory) :
    (s.withMem m).takeKey x k = (s.takeKey x k).withMem m := by
  cases k <;> rfl

/-- R26: an instruction that accesses no range does the same with any memory. Those that branch do so on SP, a register or the key. -/
theorem exec_withMem {i : Instr} (hrange : Claims.rangeBytes i = none) (h : exec i s = .next t) (m : Memory) :
    exec i (s.withMem m) = .next (t.withMem m) := by
  cases i <;> cases h
  case drw | ldB | ldMemVx | ldVxMem => cases hrange
  case ret | call => rw [apply_ite (State.withMem m)]; rfl
  case seByte | sneByte | seReg | sneReg => exact congrArg Host.Outcome.next (State.skipIf_withMem _ m)
  case skp | sknp => exact congrArg Host.Outcome.next (State.skipIf_withMem (s := s.noteKeyRead) _ m)
  case ldVxK x => exact congrArg Host.Outcome.next (State.takeKey_withMem (s := s.noteKeyRead) x _ m)
  all_goals rfl

end Sys2Proof.Machine

namespace Sys2Proof.Claims

open Sys2Proof.Machine

/-- Settles O14: the word stored is the word fetched, and the word that encodes an instruction decodes to it. -/
theorem storedInstructionIsTheOneExecuted : Obligations.StoredInstructionIsTheOneExecuted :=
  fun _ i hfault hwf hpc => step_of_instr hfault (State.fetchWord_writeBytes_pc (encode i) hpc hwf) (decodeWord_encode i)

/-- Settles O47: Fx33 and Fx55 write nothing outside their checked range, and no other instruction writes memory. -/
theorem onlyBcdAndStoreWriteMemory : Obligations.OnlyBcdAndStoreWriteMemory := by
  intro i s t a h hne
  cases i
  case ldB x =>
    cases h
    exact ⟨.inl ⟨x, rfl⟩, 3, rfl, State.in_range_of_readByte_withRange_writeBytes_ne hne⟩
  case ldMemVx x =>
    cases h
    have hin := State.in_range_of_readByte_withRange_writeBytes_ne hne
    rw [length_regsUpTo] at hin
    exact ⟨.inr ⟨x, rfl⟩, x.val + 1, rfl, hin⟩
  all_goals exact absurd (readByte_exec_of_mem_eq h (exec_keeps_mem (by simp) (by simp) h) a) hne

/-- Settles O48, by `exec_withMem`. -/
theorem onlyRangeInstructionsReadMemory : Obligations.OnlyRangeInstructionsReadMemory :=
  fun _ _ _ m hrange h => exec_withMem hrange h m

end Sys2Proof.Claims

namespace Sys2Proof

/-- R29: the two bytes of an instruction's word, high byte first, decode to it, and the bytes after them are left. -/
theorem decodeBytes_encodeBytes_append (i : Instr) (rest : List Byte) :
    decodeBytes (encodeBytes i ++ rest) = some (.instr i, rest) := by
  simp [encodeBytes, decodeBytes, decodeWord_encode]

/-! ### The fields of a word make up the word (R41) -/

/-- R4: a word as its family, its `x` field and its low byte. -/
theorem toNat_eq_of_fieldSub (w : Word) : w.toNat = fieldO w * 4096 + (fieldX w).val * 256 + fieldSub w := by
  have := w.isLt
  simp only [fieldO, fieldX, fieldSub, field, Fin.val_ofNat]; omega

/-- R4: the low byte as its two nibbles. -/
theorem fieldSub_eq_nibbles (w : Word) : fieldSub w = (fieldY w).val * 16 + fieldZ w := by
  simp only [fieldSub, fieldY, fieldZ, field, Fin.val_ofNat]; omega

theorem encodeX_fields {w : Word} {o sub : Nat} (ho : fieldO w = o) (hs : fieldSub w = sub) :
    encodeX o (fieldX w) sub = w := by
  rw [encodeX, ← ho, ← hs, ← toNat_eq_of_fieldSub, BitVec.ofNat_toNat, BitVec.setWidth_eq]

theorem encodeXY_fields {w : Word} {o z : Nat} (ho : fieldO w = o) (hz : fieldZ w = z) :
    encodeXY o (fieldX w) (fieldY w) z = w := by
  rw [encodeXY, Nat.add_assoc, ← hz, ← fieldSub_eq_nibbles]
  exact encodeX_fields ho rfl

theorem encodeXYN_fields {w : Word} {o : Nat} (ho : fieldO w = o) :
    encodeXY o (fieldX w) (fieldY w) (fieldN w).toNat = w :=
  encodeXY_fields ho (by simp only [fieldZ, fieldN, field, BitVec.toNat_ofNat]; omega)

theorem encodeXK_fields {w : Word} {o : Nat} (ho : fieldO w = o) : encodeXK o (fieldX w) (fieldKK w) = w :=
  encodeX_fields ho (by simp only [fieldSub, fieldKK, field, BitVec.toNat_ofNat]; omega)

theorem encodeA_fields {w : Word} {o : Nat} (ho : fieldO w = o) : encodeA o (fieldNNN w) = w := by
  apply BitVec.eq_of_toNat_eq
  have := w.isLt
  have : o < 16 := by simp only [fieldO, field] at ho; omega
  rw [encodeA_toNat _ _ this, ← ho]
  simp only [fieldO, fieldNNN, field, BitVec.toNat_ofNat]; omega

/-! ### A word that decodes to an instruction is its encoding (R43) -/

theorem encode_of_decodeFamily8 {w : Word} {i : Instr} (ho : fieldO w = 0x8) (h : decodeFamily8 w = .instr i) :
    encode i = w := by
  unfold decodeFamily8 at h
  split at h <;> cases h <;> exact encodeXY_fields ho (by assumption)

theorem encode_of_decodeFamilyE {w : Word} {i : Instr} (ho : fieldO w = 0xE) (h : decodeFamilyE w = .instr i) :
    encode i = w := by
  unfold decodeFamilyE at h
  split_ifs at h <;> cases h <;> exact encodeX_fields ho (by assumption)

theorem encode_of_decodeFamilyF {w : Word} {i : Instr} (ho : fieldO w = 0xF) (h : decodeFamilyF w = .instr i) :
    encode i = w := by
  unfold decodeFamilyF at h
  split_ifs at h <;> cases h <;> exact encodeX_fields ho (by assumption)

/-- One line for each family: the instruction it decodes to has the word's own fields as operands. -/
theorem encode_of_decodeFamily {w : Word} {i : Instr} (h : decodeFamily w = .instr i) : encode i = w := by
  unfold decodeFamily at h
  split at h <;> rename_i ho
  · cases h; exact encodeA_fields ho
  · cases h; exact encodeA_fields ho
  · cases h; exact encodeXK_fields ho
  · cases h; exact encodeXK_fields ho
  · split_ifs at h with hz
    cases h; exact encodeXY_fields ho hz
  · cases h; exact encodeXK_fields ho
  · cases h; exact encodeXK_fields ho
  · exact encode_of_decodeFamily8 ho h
  · split_ifs at h with hz
    cases h; exact encodeXY_fields ho hz
  · cases h; exact encodeA_fields ho
  · cases h; exact encodeA_fields ho
  · cases h; exact encodeXK_fields ho
  · cases h; exact encodeXYN_fields ho
  · exact encode_of_decodeFamilyE ho h
  · exact encode_of_decodeFamilyF ho h
  · cases h

theorem encode_of_decodeWord {w : Word} {i : Instr} (h : decodeWord w = .instr i) : encode i = w := by
  unfold decodeWord at h
  split_ifs at h with hcls hret
  · cases h; exact hcls.symm
  · cases h; exact hret.symm
  · exact encode_of_decodeFamily h

/-! ### The illegal words (R47) -/

/-- R47: seven of the sixteen low nibbles select no operation. -/
theorem decodeFamily8_eq_unknown_iff (w : Word) :
    decodeFamily8 w = .unknownInstruction w ↔ fieldZ w ∈ [0x8, 0x9, 0xA, 0xB, 0xC, 0xD, 0xF] := by
  have hz : fieldZ w < 16 := Nat.mod_lt _ (by decide)
  unfold decodeFamily8
  generalize fieldZ w = z at hz ⊢
  interval_cases z <;> simp

theorem decodeFamilyE_eq_unknown_iff (w : Word) :
    decodeFamilyE w = .unknownInstruction w ↔ fieldSub w ∉ [0x9E, 0xA1] := by
  unfold decodeFamilyE
  split_ifs <;> simp [*]

theorem decodeFamilyF_eq_unknown_iff (w : Word) :
    decodeFamilyF w = .unknownInstruction w ↔
      fieldSub w ∉ [0x07, 0x0A, 0x15, 0x18, 0x1E, 0x29, 0x33, 0x55, 0x65] := by
  unfold decodeFamilyF
  split_ifs <;> simp [*]

/-- The listed spaces say with quotient and remainder what the fields say, and a word below 0x1000 is one of family 0. -/
theorem illegalWord_iff_fields (w : Word) :
    Claims.illegalWord w.toNat ↔
      (fieldO w = 0x0 ∧ w ≠ 0x00E0#16 ∧ w ≠ 0x00EE#16) ∨ (fieldO w = 0x5 ∧ fieldZ w ≠ 0) ∨
      (fieldO w = 0x8 ∧ fieldZ w ∈ [0x8, 0x9, 0xA, 0xB, 0xC, 0xD, 0xF]) ∨
      (fieldO w = 0x9 ∧ fieldZ w ≠ 0) ∨
      (fieldO w = 0xE ∧ fieldSub w ∉ [0x9E, 0xA1]) ∨
      (fieldO w = 0xF ∧ fieldSub w ∉ [0x07, 0x0A, 0x15, 0x18, 0x1E, 0x29, 0x33, 0x55, 0x65]) := by
  have := w.isLt
  have hO : w.toNat / 4096 = fieldO w := by simp only [fieldO, field]; omega
  have hlow : w.toNat < 0x1000 ↔ fieldO w = 0 := by omega
  have hZ : w.toNat % 16 = fieldZ w := by simp only [fieldZ, field]; omega
  have hSub : w.toNat % 256 = fieldSub w := by simp only [fieldSub, field]; omega
  have hcls : w.toNat ≠ 0x00E0 ↔ w ≠ 0x00E0#16 := BitVec.toNat_ne_iff_ne (y := 0x00E0#16)
  have hret : w.toNat ≠ 0x00EE ↔ w ≠ 0x00EE#16 := BitVec.toNat_ne_iff_ne (y := 0x00EE#16)
  rw [Claims.illegalWord, hlow, hO, hZ, hSub, hcls, hret]

/-- One case for each of the sixteen families, after the two words that are matched as a whole. -/
theorem decodeWord_eq_unknown_iff (w : Word) :
    decodeWord w = .unknownInstruction w ↔ Claims.illegalWord w.toNat := by
  rw [illegalWord_iff_fields]
  unfold decodeWord
  split_ifs with hcls hret
  · subst hcls; decide
  · subst hret; decide
  · have ho : fieldO w < 16 := Nat.mod_lt _ (by decide)
    unfold decodeFamily
    generalize fieldO w = o at ho ⊢
    interval_cases o <;>
      simp [hcls, hret, decodeFamily8_eq_unknown_iff, decodeFamilyE_eq_unknown_iff, decodeFamilyF_eq_unknown_iff]

/-! ### The rows of the opcode table (R43) -/

end Sys2Proof

namespace Sys2Proof.Laws.EncodesItsRow

/-- The laws of this namespace, for every instruction. -/
theorem holds : ∀ i : Instr, Statement i
  | .cls => cls
  | .ret => ret
  | .jp nnn => jp nnn
  | .call nnn => call nnn
  | .seByte x kk => seByte x kk
  | .sneByte x kk => sneByte x kk
  | .seReg x y => seReg x y
  | .ldByte x kk => ldByte x kk
  | .addByte x kk => addByte x kk
  | .ldReg x y => ldReg x y
  | .orReg x y => orReg x y
  | .andReg x y => andReg x y
  | .xorReg x y => xorReg x y
  | .addReg x y => addReg x y
  | .subReg x y => subReg x y
  | .shr x y => shr x y
  | .subnReg x y => subnReg x y
  | .shl x y => shl x y
  | .sneReg x y => sneReg x y
  | .ldI nnn => ldI nnn
  | .jpV0 nnn => jpV0 nnn
  | .rnd x kk => rnd x kk
  | .drw x y n => drw x y n
  | .skp x => skp x
  | .sknp x => sknp x
  | .ldVxDt x => ldVxDt x
  | .ldVxK x => ldVxK x
  | .ldDtVx x => ldDtVx x
  | .ldStVx x => ldStVx x
  | .addI x => addI x
  | .ldF x => ldF x
  | .ldB x => ldB x
  | .ldMemVx x => ldMemVx x
  | .ldVxMem x => ldVxMem x

end Sys2Proof.Laws.EncodesItsRow

namespace Sys2Proof

theorem eq_of_and_FFFF {w u : Word} (h : w.toNat &&& 0xFFFF = u.toNat) : w = u := by
  apply BitVec.eq_of_toNat_eq
  rw [← h, Nat.and_two_pow_sub_one_of_lt_two_pow w.isLt]

theorem fieldO_of_and_F000 {w : Word} {p : Nat} (h : w.toNat &&& 0xF000 = p) : fieldO w = p / 4096 := by
  rw [mask_F000] at h
  simp only [fieldO, field]; omega

theorem fieldO_fieldZ_of_and_F00F {w : Word} {p : Nat} (h : w.toNat &&& 0xF00F = p) :
    fieldO w = p / 4096 ∧ fieldZ w = p % 16 := by
  rw [mask_F00F] at h
  simp only [fieldO, fieldZ, field]; omega

theorem fieldO_fieldSub_of_and_F0FF {w : Word} {p : Nat} (h : w.toNat &&& 0xF0FF = p) :
    fieldO w = p / 4096 ∧ fieldSub w = p % 256 := by
  rw [mask_F0FF] at h
  simp only [fieldO, fieldSub, field]; omega

/-- R43: by mask, a matching word has the family and the sub-opcode of the row, and these select the row's arm of the decoder. -/
theorem exists_decodeWord_of_matchesWord {i : Instr} {w : Word} (h : i.row.matchesWord w = true) :
    ∃ j, decodeWord w = .instr j ∧ j.row = i.row := by
  have h : w.toNat &&& i.row.mask = i.row.pattern := eq_of_beq h
  cases i <;> simp only [Instr.row] at h
  case cls => exact ⟨.cls, by rw [eq_of_and_FFFF (u := 0x00E0#16) h]; rfl, rfl⟩
  case ret => exact ⟨.ret, by rw [eq_of_and_FFFF (u := 0x00EE#16) h]; rfl, rfl⟩
  case jp | call | seByte | sneByte | ldByte | addByte | ldI | jpV0 | rnd | drw =>
    have ho := fieldO_of_and_F000 h
    rw [decodeWord_of_fieldO ho (by decide)]
    simp [decodeFamily, ho, Instr.row]
  case seReg | sneReg | ldReg | orReg | andReg | xorReg | addReg | subReg | shr | subnReg | shl =>
    obtain ⟨ho, hz⟩ := fieldO_fieldZ_of_and_F00F h
    rw [decodeWord_of_fieldO ho (by decide)]
    simp [decodeFamily, decodeFamily8, ho, hz, Instr.row]
  case skp | sknp =>
    obtain ⟨ho, hs⟩ := fieldO_fieldSub_of_and_F0FF h
    rw [decodeWord_of_fieldO ho (by decide)]
    simp [decodeFamily, decodeFamilyE, ho, hs, Instr.row]
  case ldVxDt | ldVxK | ldDtVx | ldStVx | addI | ldF | ldB | ldMemVx | ldVxMem =>
    obtain ⟨ho, hs⟩ := fieldO_fieldSub_of_and_F0FF h
    rw [decodeWord_of_fieldO ho (by decide)]
    simp [decodeFamily, decodeFamilyF, ho, hs, Instr.row]

/-- R43's last paragraph: a row matches exactly the words that decode to an instruction of that row. -/
theorem matchesWord_row_iff (i : Instr) (w : Word) :
    i.row.matchesWord w = true ↔ ∃ j, decodeWord w = .instr j ∧ j.row = i.row := by
  refine ⟨exists_decodeWord_of_matchesWord, fun ⟨j, hj, hrow⟩ => ?_⟩
  rw [← hrow, ← encode_of_decodeWord hj]
  exact beq_of_eq (Laws.EncodesItsRow.holds j)

theorem Instr.row_mem_opcodeRows (i : Instr) : i.row ∈ opcodeRows := by
  cases i <;> simp [opcodeRows, rowInstrs, rowInstrsLow, rowInstrsHigh, Instr.row]

/-- The rows differ by their patterns. -/
theorem opcodeRows_nodup : opcodeRows.Nodup := .of_map OpRow.pattern (by decide)

end Sys2Proof

namespace Sys2Proof.Machine

/-- R45: the meaning of each instruction answers a next state; a fatal fault is taken inside it (log 3). -/
theorem exists_exec_eq_next (i : Instr) (s : State) : ∃ t, exec i s = .next t := by
  cases i <;> exact ⟨_, rfl⟩

end Sys2Proof.Machine

namespace Sys2Proof.Claims

open Sys2Proof.Machine

/-- Settles O15, by format: the fields of an encoded word are the operands it was made of. -/
theorem decodeOfEncodeIsTheInstruction : Obligations.DecodeOfEncodeIsTheInstruction :=
  fun i rest _ => ⟨decodeWord_encode i, decodeBytes_encodeBytes_append i rest⟩

/-- Settles O16, by `encode_of_decodeWord`. -/
theorem encodeOfDecodeIsTheWord : Obligations.EncodeOfDecodeIsTheWord :=
  fun _ _ h => encode_of_decodeWord h

/-- Settles O17: a row matches a word exactly if it is the row of the decoded instruction, and each row is listed once. -/
theorem exactlyOneTableRowOrNoneMatches : Obligations.ExactlyOneTableRowOrNoneMatches := by
  intro w
  have hmatch : ∀ r ∈ opcodeRows, (r.matchesWord w = true ↔ ∃ j, decodeWord w = .instr j ∧ j.row = r) := by
    intro r hr
    obtain ⟨i, -, rfl⟩ := List.mem_map.mp hr
    exact matchesWord_row_iff i w
  cases hd : decodeWord w with
  | instr i =>
    have hrow : ∀ r ∈ opcodeRows, r.matchesWord w = (r == i.row) := by
      intro r hr
      rw [Bool.eq_iff_iff, hmatch r hr, hd]
      simpa using eq_comm
    rw [List.filter_congr hrow, List.filter_beq,
      List.count_eq_one_of_mem opcodeRows_nodup i.row_mem_opcodeRows]
    rfl
  | unknownInstruction u =>
    rw [List.filter_eq_nil_iff]
    intro r hr
    rw [hmatch r hr, hd]
    simp

/-- Settles O18, by `decodeWord_eq_unknown_iff`. -/
theorem illegalWordsAreExactlyTheListed : Obligations.IllegalWordsAreExactlyTheListed :=
  decodeWord_eq_unknown_iff

/-- Settles O7: the word in the two bytes at PC is the word fetched. -/
theorem stepRunsTheDecodedInstruction : Obligations.StepRunsTheDecodedInstruction :=
  fun s _ ⟨hfault, hpc, hd⟩ => step_of_instr hfault (s.fetchWord_eq_some hpc) hd

/-- Settles O19, by evaluating the decoder on the seven words. -/
theorem wordsFromThePatternsDecode : Obligations.WordsFromThePatternsDecode := by
  unfold Obligations.WordsFromThePatternsDecode
  decide

/-- Settles O44, by `exists_exec_eq_next`. -/
theorem everyInstructionAnswersANextState : Obligations.EveryInstructionAnswersANextState :=
  exists_exec_eq_next

end Sys2Proof.Claims

namespace Sys2Proof.Machine

variable {s : State}

/-! ### The stack instructions and the skips, one equation per branch (R53, R55 to R59) -/

theorem exec_ret_of_sp_pos (h : 0 < s.sp) : exec .ret s = .next s.popToPc :=
  congrArg Host.Outcome.next (if_neg (Nat.pos_iff_ne_zero.mp h))

theorem exec_ret_of_sp_zero (h : s.sp = 0) : exec .ret s = .next (s.raiseInExec .stackUnderflow) :=
  congrArg Host.Outcome.next (if_pos h)

theorem exec_call_of_room (nnn : Addr12) (h : s.sp < s.params.stackDepth) :
    exec (.call nnn) s = .next ((s.push s.pc).setPc (zextAddr nnn)) :=
  congrArg Host.Outcome.next (if_pos h)

theorem exec_call_of_full (nnn : Addr12) (h : s.params.stackDepth ≤ s.sp) :
    exec (.call nnn) s = .next (s.raiseInExec .stackOverflow) :=
  congrArg Host.Outcome.next (if_neg (Nat.not_lt.mpr h))

/-- R12, R13: a pop after a push, whatever PC in between, leaves the pushed address in PC and the pointer as before the push; only
the dead entry tells the two states apart. -/
theorem State.popToPc_push {a pc' : Word} (h : s.sp < s.stack.length) :
    ((s.push a).setPc pc').popToPc = { s with pc := a, stack := (s.push a).stack } := by
  have hpc : ((s.push a).setPc pc').popToPc.pc = a := s.stackEntry_push_same a h
  calc ((s.push a).setPc pc').popToPc
    _ = { s with pc := ((s.push a).setPc pc').popToPc.pc, stack := (s.push a).stack } := rfl
    _ = { s with pc := a, stack := (s.push a).stack } := by rw [hpc]

/-- R45, R49: a skip, taken or not, writes PC alone. -/
theorem State.skipIf_eq (c : Prop) [Decidable c] : s.skipIf c = { s with pc := if c then s.pc + 2 else s.pc } := by
  by_cases h : c
  · rw [State.skipIf, if_pos h, if_pos h]; rfl
  · rw [State.skipIf, if_neg h, if_neg h]

end Sys2Proof.Machine

namespace Sys2Proof.Claims

open Sys2Proof.Machine

/-- Settles O21: with room, CALL is a push of the pre-advanced PC and a jump; full, it takes the fault. -/
theorem callPushesTheReturnAddress : Obligations.CallPushesTheReturnAddress := by
  intro s nnn hlen
  constructor
  · intro hroom
    exact ⟨_, exec_call_of_room nnn hroom, zextAddr_toNat nnn, rfl, s.stackEntry_push_same s.pc (hlen ▸ hroom),
      fun _ hj => s.stackEntry_push_other s.pc hj, rfl⟩
  · intro hfull
    exact exec_call_of_full nnn hfull.ge

/-- Settles O22: the RET finds the pointer above 0 and pops what the CALL pushed. -/
theorem callThenRetReturnsPastTheCall : Obligations.CallThenRetReturnsPastTheCall := by
  intro s t nnn pc' hlen hroom hcall
  rw [exec_call_of_room nnn hroom] at hcall
  cases hcall
  have hret : exec .ret ((s.push s.pc).setPc pc') = .next { s with stack := (s.push s.pc).stack } := by
    rw [exec_ret_of_sp_pos (Nat.succ_pos s.sp), State.popToPc_push (hlen ▸ hroom)]
  exact ⟨_, hret, rfl, rfl, rfl⟩

/-- Settles O20, by the two branches of RET. -/
theorem retPopsTheReturnAddress : Obligations.RetPopsTheReturnAddress :=
  fun _ => ⟨exec_ret_of_sp_pos, exec_ret_of_sp_zero⟩

/-- Settles O23: both targets fit in 16 bits, so neither sum nor immediate is reduced. -/
theorem jumpsSetPc : Obligations.JumpsSetPc :=
  fun s nnn => ⟨⟨_, rfl, zextAddr_toNat nnn, rfl⟩, ⟨_, rfl, offsetTarget_toNat nnn (s.getV 0), rfl⟩⟩

/-- Settles O24, by `State.skipIf_eq` for each of the four conditions. -/
theorem skipsAddTwoWhereTheConditionHolds : Obligations.SkipsAddTwoWhereTheConditionHolds := by
  intro s x y kk
  refine ⟨?_, ?_, ?_, ?_⟩ <;> exact congrArg Host.Outcome.next (State.skipIf_eq _)

end Sys2Proof.Claims

namespace Sys2Proof.Claims

open Sys2Proof.Machine

variable {s : State}

/-! ### Register writes as frames, flags as bits, a masked byte (R8, R9, R46, R73) -/

/-- R8: one register write changes nothing but that register. -/
theorem regFrame_setV (x : Reg) (b : Byte) : RegFrame s (s.setV x b) [x] :=
  ⟨rfl, fun _ hr => s.getV_setV_other b (List.ne_of_not_mem_cons hr), s.readByte_setV x b⟩

/-- R46: a result followed by its flag changes nothing but the destination and VF. -/
theorem regFrame_setVThenFlag (x : Reg) (b f : Byte) : RegFrame s (s.setVThenFlag x b f) [x, 15] :=
  ⟨rfl, fun _ hr => State.getV_setVThenFlag_other b f (by simpa using hr), s.readByte_setVThenFlag x b f⟩

/-- R46: the flag, written last, does not disturb the result in a destination other than VF. -/
theorem getV_setVThenFlag_dest {x : Reg} (b f : Byte) (hx : x ≠ 15) : (s.setVThenFlag x b f).getV x = b := by
  rw [s.getV_setVThenFlag b f hx, if_pos rfl]

theorem bit_flagByte (c : Prop) [Decidable c] : Bit (flagByte c) c := ⟨flagByte_of c, flagByte_of_not c⟩

theorem bit_carryFlag (a b : Byte) : Bit (carryFlag a b) (a.toNat + b.toNat > 255) := bit_flagByte _

/-- R69, R71: the exact difference is not negative where the subtrahend is at most the minuend, equality included. -/
theorem bit_notBorrowFlag (a b : Byte) : Bit (notBorrowFlag a b) (b.toNat ≤ a.toNat) :=
  ⟨fun _ => flagByte_of _ (by omega), fun _ => flagByte_of_not _ (by omega)⟩

theorem masked_and_not_mask (a m : Byte) : a &&& m &&& ~~~m = 0 := by
  rw [BitVec.and_assoc, BitVec.and_not_self]
  exact BitVec.and_zero

/-! ### The register loads, arithmetic and logic (41_alu.md) -/

/-- Settles O27: the flag is the carry of the sum, written last. -/
theorem addSetsVfToTheCarry : Obligations.AddSetsVfToTheCarry := by
  intro s x y
  refine ⟨_, rfl, ?flag, fun hx => ?result, regFrame_setVThenFlag _ _ _⟩
  case flag => rw [State.getV_setVThenFlag_vf]; exact bit_carryFlag _ _
  case result => rw [getV_setVThenFlag_dest _ _ hx, sumByte_toNat]

/-- R69, R71: an instruction that writes `a - b` to Vx and NOT borrow to VF, whichever operand is the minuend. -/
theorem exec_of_diffByte_notBorrowFlag {i : Instr} {x : Reg} {a b : Byte}
    (h : exec i s = .next (s.setVThenFlag x (diffByte a b) (notBorrowFlag a b))) :
    ∃ t, exec i s = .next t ∧ Bit (t.getV 15) (b.toNat ≤ a.toNat) ∧
      (x ≠ 15 → ((t.getV x).toNat : Int) = ((a.toNat : Int) - b.toNat) % 256) ∧ RegFrame s t [x, 15] := by
  refine ⟨_, h, ?flag, fun hx => ?result, regFrame_setVThenFlag _ _ _⟩
  case flag => rw [State.getV_setVThenFlag_vf]; exact bit_notBorrowFlag _ _
  case result => rw [getV_setVThenFlag_dest _ _ hx, diffByte_toNat]

/-- Settles O28: 8xy7 is 8xy5 with the operands exchanged. -/
theorem subtractsSetVfToNotBorrow : Obligations.SubtractsSetVfToNotBorrow :=
  fun _ _ _ => ⟨exec_of_diffByte_notBorrowFlag rfl, exec_of_diffByte_notBorrowFlag rfl⟩

/-- Settles O29: the flag is the bit shifted out of the old Vx, written last. -/
theorem shiftsSetVfToTheBitShiftedOut : Obligations.ShiftsSetVfToTheBitShiftedOut := by
  intro s x y
  constructor
  · refine ⟨_, rfl, ?flag, fun hx => ?result, regFrame_setVThenFlag _ _ _⟩
    case flag => rw [State.getV_setVThenFlag_vf, shiftedOutLow_toNat]
    case result => rw [getV_setVThenFlag_dest _ _ hx, shiftRight1_toNat]
  · refine ⟨_, rfl, ?flag, fun hx => ?result, regFrame_setVThenFlag _ _ _⟩
    case flag => rw [State.getV_setVThenFlag_vf, shiftedOutHigh_toNat]
    case result => rw [getV_setVThenFlag_dest _ _ hx, shiftLeft1_toNat]

/-- Settles O30: the draw is the one `State.randomByte` names, whatever its value. -/
theorem randomByteIsMaskedByKk : Obligations.RandomByteIsMaskedByKk := by
  intro s x kk
  have hresult : (s.noteDraw.setV x (s.randomByte &&& kk)).getV x = s.randomByte &&& kk := State.getV_setV_same _ _ _
  refine ⟨_, s.randomByte, rfl, hresult, ?_, fun _ hr => s.noteDraw.getV_setV_other _ hr, fun _ => rfl, rfl⟩
  rw [hresult, masked_and_not_mask]

/-- Settles O25: each is one register write. -/
theorem loadsAndLogicWriteOnlyVx : Obligations.LoadsAndLogicWriteOnlyVx := by
  intro s x y kk
  refine ⟨?_, ?_, ?_, ?_, ?_⟩ <;> exact ⟨_, rfl, s.getV_setV_same x _, regFrame_setV x _⟩

/-- Settles O26: one register write, of the sum. -/
theorem addByteWrapsAndSetsNoFlag : Obligations.AddByteWrapsAndSetsNoFlag := by
  intro s x kk
  refine ⟨_, rfl, ?_, regFrame_setV x _⟩
  rw [State.getV_setV_same, sumByte_toNat]

end Sys2Proof.Claims

namespace Sys2Proof.Machine

variable {s : State}

/-! ### A checked range of at least one byte, and what stands in it (R32, R78, R79) -/

/-- R32: an instruction that checks `n + 1` bytes from I has its effect where I + `n` is in memory, and takes the fault, without any of
the effect, where it is not. -/
theorem exec_of_withRange_succ {i : Instr} {n : Nat} {done : State} (h : exec i s = .next (s.withRange (n + 1) done)) :
    (s.i.toNat + n ≤ 4095 → exec i s = .next done) ∧
    (4095 < s.i.toNat + n → exec i s =
      .next { s with pc := s.pc - 2, fault := some (.outOfBoundsMemoryAccess (s.pc - 2) (max s.i.toNat 4096)) }) := by
  constructor
  · intro hle
    rw [h, s.withRange_in (.inr hle)]
  · intro hlt
    rw [h, s.withRange_out (by omega)]

/-- R78: no digit is reduced, each being below 256. -/
theorem map_toNat_bcdDigits (a : Byte) :
    (bcdDigits a).map BitVec.toNat = [a.toNat / 100, a.toNat / 10 % 10, a.toNat % 10] := by
  have ha := a.isLt
  have hundreds : a.toNat / 100 % 2 ^ 8 = a.toNat / 100 := by omega
  have tens : a.toNat / 10 % 10 % 2 ^ 8 = a.toNat / 10 % 10 := by omega
  have units : a.toNat % 10 % 2 ^ 8 = a.toNat % 10 := by omega
  simp only [bcdDigits, List.map_cons, List.map_nil, BitVec.toNat_ofNat, hundreds, tens, units]

/-- R27: bytes written are read back as the numbers they stand for. -/
theorem State.toNat_readByte_writeBytes_inside {bs : List Byte} {a j d : Nat} (hd : (bs.map BitVec.toNat)[j]? = some d)
    (ha : a + bs.length ≤ 4096) (hwf : s.mem.wf s.params) : ((s.writeBytes a bs).readByte (a + j)).toNat = d := by
  obtain ⟨hj, rfl⟩ := List.getElem?_eq_some_iff.mp hd
  rw [List.length_map] at hj
  rw [State.readByte_writeBytes_inside bs a j hj ha hwf, List.getElem_map]

/-- R79: entry `r` of the registers stored is V[r]. -/
theorem getElem_regsUpTo_val {x r : Reg} (h : r.val < (s.regsUpTo x).length) : (s.regsUpTo x)[r.val] = s.getV r := by
  rw [getElem_regsUpTo, Fin.ofNat_val_eq_self]

end Sys2Proof.Machine

namespace Sys2Proof.Claims

open Sys2Proof.Machine

variable {s : State}

/-! ### The index register and memory instructions (42_index_memory.md) -/

/-- R27: a write of bytes changes nothing outside the bytes it writes. -/
theorem storeFrame_writeBytes (a : Nat) (bs : List Byte) : StoreFrame s (s.writeBytes a bs) a bs.length :=
  ⟨rfl, fun _ hb => State.readByte_writeBytes_outside bs hb⟩

theorem bit_indexOverflowFlag (i : Word) (a : Byte) : Bit (indexOverflowFlag i a) (i.toNat + a.toNat > 0xFFF) := bit_flagByte _

/-- Settles O33: in range, the bytes written from I are the digits. -/
theorem bcdStoresTheDecimalDigits : Obligations.BcdStoresTheDecimalDigits := by
  intro s x hwf
  obtain ⟨hin, hout⟩ := exec_of_withRange_succ (s := s) (i := .ldB x) rfl
  refine ⟨fun hle => ?_, hout⟩
  have digit {j d : Nat} (hd : [(s.getV x).toNat / 100, (s.getV x).toNat / 10 % 10, (s.getV x).toNat % 10][j]? = some d) :
      ((s.writeBytes s.i.toNat (bcdDigits (s.getV x))).readByte (s.i.toNat + j)).toNat = d :=
    State.toNat_readByte_writeBytes_inside (map_toNat_bcdDigits _ ▸ hd) (Nat.succ_le_succ hle) hwf
  exact ⟨_, hin hle, storeFrame_writeBytes _ _, digit (j := 0) rfl, digit (j := 1) rfl, digit (j := 2) rfl⟩

/-- Settles O34: in range, byte `r` of those written from I is V[r]. -/
theorem storeRegistersWritesV0ToVx : Obligations.StoreRegistersWritesV0ToVx := by
  intro s x hwf
  obtain ⟨hin, hout⟩ := exec_of_withRange_succ (s := s) (i := .ldMemVx x) rfl
  have hlen := length_regsUpTo s x
  refine ⟨fun hle => ⟨_, hin hle, hlen ▸ storeFrame_writeBytes _ _, fun r hr => ?_⟩, hout⟩
  have hlt : r.val < (s.regsUpTo x).length := hlen ▸ Nat.lt_succ_of_le hr
  rw [State.readByte_writeBytes_inside _ _ _ hlt (by omega) hwf, getElem_regsUpTo_val]

/-- Settles O35: in range, `State.getV_loadRegs` says which registers come from memory. -/
theorem loadRegistersReadsV0ToVx : Obligations.LoadRegistersReadsV0ToVx := by
  intro s x
  obtain ⟨hin, hout⟩ := exec_of_withRange_succ (s := s) (i := .ldVxMem x) rfl
  exact ⟨fun hle => ⟨_, hin hle, rfl, fun _ hr => (s.getV_loadRegs _ _ _).trans (if_pos hr),
    fun _ hr => (s.getV_loadRegs _ _ _).trans (if_neg (not_le.mpr hr)), s.readByte_loadRegs x _⟩, hout⟩

/-- Settles O32: the flag is written after the sum, and both from the old I and Vx. -/
theorem addToIndexWrapsAndSetsVf : Obligations.AddToIndexWrapsAndSetsVf := by
  intro s x
  refine ⟨_, rfl, indexSum_toNat _ _, ?_, fun _ hr => State.getV_setV_other _ _ hr, fun _ => rfl, rfl⟩
  rw [State.getV_setV_same]
  exact bit_indexOverflowFlag _ _

/-- Settles O31: both addresses fit in 16 bits, the glyph's because the parameters bound FONT_BASE. -/
theorem indexLoadsWriteOnlyI : Obligations.IndexLoadsWriteOnlyI :=
  fun s x nnn hp => ⟨⟨_, rfl, zextAddr_toNat nnn, rfl⟩, ⟨_, rfl, glyphAddress_toNat s.params (s.getV x) hp, rfl⟩⟩

end Sys2Proof.Claims

namespace Sys2Proof.Machine

variable {acc mid acc' : FrameBuffer × Bool} {M N K : Fin 64 → Fin 32 → Prop}

/-! ### XOR with a mask, and the disjoint masks that make up a sprite (R82, R84) -/

/-- R84: what a blit or a part of one does to the framebuffer and the collision so far, `M` being the pixels its set bits fall on. -/
structure XorsMask (M : Fin 64 → Fin 32 → Prop) (acc acc' : FrameBuffer × Bool) : Prop where
  pixel_iff (c r) : acc'.1.pixel c r = true ↔ ¬ (acc.1.pixel c r = true ↔ M c r)
  collision_iff : acc'.2 = true ↔ acc.2 = true ∨ ∃ c r, acc.1.pixel c r = true ∧ M c r

theorem XorsMask.of_empty (h : ∀ c r, ¬ M c r) : XorsMask M acc acc where
  pixel_iff c r := by simp [h c r]
  collision_iff := by simp [h]

/-- Outside its mask, the first part leaves a pixel as the second part then finds it. -/
theorem XorsMask.pixel_iff_of_not_mem (h : XorsMask M acc acc') {c r} (hM : ¬ M c r) :
    acc'.1.pixel c r = true ↔ acc.1.pixel c r = true := by
  rw [h.pixel_iff c r]; tauto

/-- R84: two parts that never draw onto one pixel do together what their masks say together. -/
theorem XorsMask.trans (hM : XorsMask M acc mid) (hN : XorsMask N mid acc') (hdisj : ∀ c r, N c r → ¬ M c r)
    (hK : ∀ c r, K c r ↔ M c r ∨ N c r) : XorsMask K acc acc' where
  pixel_iff c r := by
    have := hdisj c r
    rw [hN.pixel_iff, hM.pixel_iff, hK]
    tauto
  collision_iff := by
    have hsecond : ∀ c r, (mid.1.pixel c r = true ∧ N c r) ↔ (acc.1.pixel c r = true ∧ N c r) := fun c r =>
      and_congr_left fun hn => hM.pixel_iff_of_not_mem (hdisj c r hn)
    simp only [hN.collision_iff, hM.collision_iff, hsecond, hK, and_or_left, exists_or, or_assoc]

/-- The first `n` bits of a sprite row drawn from column `x` fall on screen column `c`, after wrapping (R82). -/
def rowCovers (row : Byte) (x n : Nat) (c : Fin 64) : Prop :=
  ∃ k < n, spriteBit row k = true ∧ (x + k) % 64 = c.val

/-- `Claims.covers` by rows, with the start coordinates as numbers that a blit can count up. -/
def rowsCover (rows : List Byte) (x y : Nat) (c : Fin 64) (r : Fin 32) : Prop :=
  ∃ j, ∃ h : j < rows.length, rowCovers rows[j] x 8 c ∧ (y + j) % 32 = r.val

theorem covers_iff_rowsCover (rows : List Byte) (x0 y0 : Byte) (c : Fin 64) (r : Fin 32) :
    Claims.covers rows x0 y0 c r ↔ rowsCover rows x0.toNat y0.toNat c r := by
  constructor
  · rintro ⟨j, k, hj, hk, hbit, hc, hr⟩
    exact ⟨j, hj, ⟨k, hk, hbit, hc⟩, hr⟩
  · rintro ⟨j, hj, ⟨k, hk, hbit, hc⟩, hr⟩
    exact ⟨j, k, hj, hk, hbit, hc, hr⟩

theorem rowCovers_succ (row : Byte) (x n : Nat) (c : Fin 64) :
    rowCovers row x (n + 1) c ↔ rowCovers row x n c ∨ (spriteBit row n = true ∧ (x + n) % 64 = c.val) := by
  simp only [rowCovers, Nat.lt_succ_iff_lt_or_eq, or_and_right, exists_or, exists_eq_left]

theorem rowsCover_cons (row : Byte) (rest : List Byte) (x y : Nat) (c : Fin 64) (r : Fin 32) :
    rowsCover (row :: rest) x y c r ↔
      (rowCovers row x 8 c ∧ r = Fin.ofNat 32 y) ∨ rowsCover rest x (y + 1) c r := by
  have hy : y % 32 = r.val ↔ r = Fin.ofNat 32 y := by rw [Fin.ext_iff, Fin.val_ofNat, eq_comm]
  constructor
  · rintro ⟨_ | j, hj, hcov, hr⟩
    · exact .inl ⟨hcov, hy.mp hr⟩
    · exact .inr ⟨j, Nat.lt_of_succ_lt_succ hj, hcov, by omega⟩
  · rintro (⟨hcov, hr⟩ | ⟨j, hj, hcov, hr⟩)
    · exact ⟨0, Nat.succ_pos _, hcov, hy.mpr hr⟩
    · exact ⟨j + 1, Nat.succ_lt_succ hj, hcov, by omega⟩

/-! ### The blit, from its columns up (R82) -/

theorem drawColumn_xorsMask (row : Byte) (x k : Nat) (py : Fin 32) (acc : FrameBuffer × Bool) :
    XorsMask (fun c r => (spriteBit row k = true ∧ (x + k) % 64 = c.val) ∧ r = py) acc (drawColumn row x py acc k) := by
  by_cases hbit : spriteBit row k = true
  · have hmask : ∀ (c : Fin 64) (r : Fin 32), (spriteBit row k = true ∧ (x + k) % 64 = c.val) ∧ r = py ↔
        c = Fin.ofNat 64 (x + k) ∧ r = py := fun c r => by simp [hbit, Fin.ext_iff, eq_comm]
    rw [drawColumn, if_pos hbit]
    simp only [hmask]
    constructor
    · intro c r
      rw [FrameBuffer.pixel_toggle, Bool.xor_iff_ne, ne_eq, Bool.eq_iff_iff, decide_eq_true_iff]
    · simp
  · rw [drawColumn, if_neg hbit]
    exact .of_empty fun _ _ h => hbit h.1.1

/-- R84: fewer columns than the screen has, so no two of them meet. -/
theorem foldl_drawColumn_xorsMask (row : Byte) (x : Nat) (py : Fin 32) (acc : FrameBuffer × Bool) {n : Nat} (hn : n ≤ 64) :
    XorsMask (fun c r => rowCovers row x n c ∧ r = py) acc ((List.range n).foldl (drawColumn row x py) acc) := by
  induction n with
  | zero => exact .of_empty fun _ _ ⟨⟨_, hk, _⟩, _⟩ => Nat.not_lt_zero _ hk
  | succ n ih =>
    rw [List.range_succ, List.foldl_concat]
    refine (ih (Nat.le_of_succ_le hn)).trans (drawColumn_xorsMask row x n py _) ?_ fun c r => ?_
    · rintro c r ⟨⟨-, hc⟩, -⟩ ⟨⟨k, hk, -, hc'⟩, -⟩
      omega
    · rw [rowCovers_succ, or_and_right]

/-- R84: fewer rows than the screen has, so no two of them meet. -/
theorem drawRows_xorsMask {rows : List Byte} (hlen : rows.length ≤ 32) (x y : Nat) (acc : FrameBuffer × Bool) :
    XorsMask (rowsCover rows x y) acc (drawRows x y rows acc) := by
  induction rows generalizing y acc with
  | nil => exact .of_empty fun _ _ ⟨_, hj, _⟩ => Nat.not_lt_zero _ hj
  | cons row rest ih =>
    rw [List.length_cons] at hlen
    have hrow : XorsMask (fun c r => rowCovers row x 8 c ∧ r = Fin.ofNat 32 y) acc (drawRow row x (Fin.ofNat 32 y) acc) :=
      foldl_drawColumn_xorsMask row x _ acc (by decide)
    refine hrow.trans (ih (Nat.le_of_succ_le hlen) (y + 1) _) ?_ (rowsCover_cons row rest x y)
    rintro c r ⟨j, hj, -, hr⟩ ⟨-, rfl⟩
    rw [Fin.val_ofNat] at hr
    omega

/-- R84, for a sprite no higher than the screen: the blit starts with no collision. -/
theorem blit_xorsMask {rows : List Byte} (hlen : rows.length ≤ 32) (x0 y0 : Byte) (fb : FrameBuffer) :
    XorsMask (Claims.covers rows x0 y0) (fb, false) (blit rows x0 y0 fb) := by
  have hmask : Claims.covers rows x0 y0 = rowsCover rows x0.toNat y0.toNat :=
    funext₂ fun c r => propext (covers_iff_rowsCover rows x0 y0 c r)
  rw [hmask]
  exact drawRows_xorsMask hlen x0.toNat y0.toNat (fb, false)

theorem blit_pixel_iff {rows : List Byte} (hlen : rows.length ≤ 32) (x0 y0 : Byte) (fb : FrameBuffer) (c : Fin 64)
    (r : Fin 32) :
    (blit rows x0 y0 fb).1.pixel c r = true ↔ ¬ (fb.pixel c r = true ↔ Claims.covers rows x0 y0 c r) :=
  (blit_xorsMask hlen x0 y0 fb).pixel_iff c r

theorem blit_collision_iff {rows : List Byte} (hlen : rows.length ≤ 32) (x0 y0 : Byte) (fb : FrameBuffer) :
    (blit rows x0 y0 fb).2 = true ↔ ∃ c r, fb.pixel c r = true ∧ Claims.covers rows x0 y0 c r :=
  (blit_xorsMask hlen x0 y0 fb).collision_iff.trans (or_iff_right Bool.false_ne_true)

/-- R82: the second draw inverts again the pixels the first inverted. -/
theorem second_blit_restores {rows : List Byte} (hlen : rows.length ≤ 32) (x0 y0 : Byte) (fb : FrameBuffer) :
    (blit rows x0 y0 (blit rows x0 y0 fb).1).1 = fb := by
  apply FrameBuffer.ext_pixel
  intro c r
  rw [Bool.eq_iff_iff, blit_pixel_iff hlen, blit_pixel_iff hlen]
  tauto

/-- R82: after a first draw, the covered pixels that are set are those that were clear before it. -/
theorem second_blit_collision_iff {rows : List Byte} (hlen : rows.length ≤ 32) (x0 y0 : Byte) (fb : FrameBuffer) :
    (blit rows x0 y0 (blit rows x0 y0 fb).1).2 = true ↔
      ∃ c r, Claims.covers rows x0 y0 c r ∧ fb.pixel c r = false := by
  rw [blit_collision_iff hlen]
  refine exists₂_congr fun c r => ?_
  rw [blit_pixel_iff hlen, ← Bool.not_eq_true]
  tauto

/-- R83: VF is written last. -/
theorem State.getV_drawSprite_vf (s : State) (x y : Reg) (rows : List Byte) :
    (s.drawSprite x y rows).getV 15 = collisionFlag (blit rows (s.getV x) (s.getV y) s.fb).2 :=
  State.getV_setV_same _ _ _

/-! ### Sprites with a set bit (R82) -/

/-- The eight columns of a row are its eight bits. -/
theorem ne_zero_iff_exists_spriteBit (row : Byte) : row ≠ 0 ↔ ∃ k < 8, spriteBit row k = true := by
  constructor
  · contrapose!
    intro h
    apply BitVec.eq_of_getLsbD_eq
    intro i hi
    have hbit := h (7 - i) (by omega)
    rw [spriteBit, Nat.sub_sub_self (Nat.le_of_lt_succ hi)] at hbit
    exact (Bool.eq_false_of_not_eq_true hbit).trans BitVec.getLsbD_zero.symm
  · rintro ⟨k, -, hbit⟩ rfl
    exact absurd hbit (by simp [spriteBit])

/-- A sprite covers some pixel exactly if it has a set bit: wrapping puts every bit on the screen. -/
theorem exists_covers_iff (rows : List Byte) (x0 y0 : Byte) :
    (∃ c r, Claims.covers rows x0 y0 c r) ↔ ∃ b ∈ rows, b ≠ 0 := by
  constructor
  · rintro ⟨c, r, j, k, hj, hk, hbit, -⟩
    exact ⟨rows[j], List.getElem_mem hj, (ne_zero_iff_exists_spriteBit _).mpr ⟨k, hk, hbit⟩⟩
  · rintro ⟨b, hb, hne⟩
    obtain ⟨j, hj, rfl⟩ := List.getElem_of_mem hb
    obtain ⟨k, hk, hbit⟩ := (ne_zero_iff_exists_spriteBit _).mp hne
    exact ⟨Fin.ofNat 64 (x0.toNat + k), Fin.ofNat 32 (y0.toNat + j), j, k, hj, hk, hbit, rfl, rfl⟩

end Sys2Proof.Machine

namespace Sys2Proof.Claims

open Sys2Proof.Machine

/-! ### The display instructions (43_display.md) -/

/-- Settles O37: a sprite of at most 15 rows never draws twice onto one pixel. -/
theorem blitIsXorWithTheWrappedMask : Obligations.BlitIsXorWithTheWrappedMask := by
  intro rows x0 y0 fb hlen
  have hlen : rows.length ≤ 32 := hlen.trans (by decide)
  exact ⟨blit_pixel_iff hlen x0 y0 fb, blit_collision_iff hlen x0 y0 fb⟩

theorem bit_collisionFlag {collision : Bool} {c : Prop} (h : collision = true ↔ c) : Bit (collisionFlag collision) c :=
  ⟨fun hc => flagByte_of _ (h.mpr hc), fun hc => flagByte_of_not _ (mt h.mp hc)⟩

/-- Settles O38: in range, the blit of the bytes at I and then the flag; out of range, the fault alone. -/
theorem drawXorsTheSpriteAndSetsVf : Obligations.DrawXorsTheSpriteAndSetsVf := by
  intro s x y n
  have hlen : (s.readBytes s.i.toNat n.toNat).length ≤ 32 := by
    rw [length_readBytes]
    exact (Nat.le_of_lt n.isLt).trans (by decide)
  constructor
  · intro hin
    refine ⟨_, congrArg Host.Outcome.next (s.withRange_in hin), blit_pixel_iff hlen _ _ _, ?flag,
      fun _ hr => (s.setFb _).getV_setV_other _ hr, fun _ => rfl, rfl⟩
    case flag =>
      rw [State.getV_drawSprite_vf]
      exact bit_collisionFlag (blit_collision_iff hlen _ _ _)
  · intro hout
    exact congrArg Host.Outcome.next (s.withRange_out hout)

/-- Settles O39: the second draw is an XOR with the mask of the first, over a screen whose covered pixels are inverted. -/
theorem drawingTwiceRestoresTheScreen : Obligations.DrawingTwiceRestoresTheScreen := by
  intro rows x0 y0 fb hlen
  have hlen : rows.length ≤ 32 := hlen.trans (by decide)
  have hcollision := second_blit_collision_iff hlen x0 y0 fb
  refine ⟨second_blit_restores hlen x0 y0 fb, hcollision, ?_⟩
  rintro rfl
  rw [hcollision, ← exists_covers_iff rows x0 y0]
  simp only [FrameBuffer.pixel_clear, and_true]

/-- Settles O36: one framebuffer write, of a framebuffer without a set pixel. -/
theorem clearScreenClearsEveryPixel : Obligations.ClearScreenClearsEveryPixel :=
  fun _ => ⟨_, rfl, FrameBuffer.pixel_clear, rfl⟩

end Sys2Proof.Claims

namespace Sys2Proof.Machine

variable {s t : State}

/-! ### The key instructions, one equation per branch, and the report of an instruction's step (R85, R86, R88, R95) -/

@[simp] theorem State.preAdvance_keySnapshot : s.preAdvance.keySnapshot = s.keySnapshot := rfl

/-- R85, R86: the comparison needs a key, so with none it fails for every byte. -/
theorem keyEquals_iff_exists (k : Option Key) (a : Byte) : keyEquals k a ↔ ∃ c, k = some c ∧ c.toNat = a.toNat := by
  cases k with
  | none => exact iff_of_false (keyEquals_none a) (fun ⟨_, h, _⟩ => Option.some_ne_none _ h.symm)
  | some k => simp only [keyEquals_some, Option.some.injEq, exists_eq_left']

theorem exec_skp_eq (x : Reg) : exec (.skp x) s =
    .next { s with pc := if keyEquals s.keySnapshot (s.getV x) then s.pc + 2 else s.pc, keyReads := s.keyReads + 1 } :=
  congrArg Host.Outcome.next (State.skipIf_eq _)

theorem exec_sknp_eq (x : Reg) : exec (.sknp x) s =
    .next { s with pc := if keyEquals s.keySnapshot (s.getV x) then s.pc else s.pc + 2, keyReads := s.keyReads + 1 } := by
  rw [← ite_not]
  exact congrArg Host.Outcome.next (State.skipIf_eq _)

theorem exec_ldVxK_of_key {k : Key} (x : Reg) (h : s.keySnapshot = some k) :
    exec (.ldVxK x) s = .next (s.noteKeyRead.setV x (k.setWidth 8)) :=
  congrArg (fun key => Host.Outcome.next (s.noteKeyRead.takeKey x key)) h

theorem exec_ldVxK_of_no_key (x : Reg) (h : s.keySnapshot = none) :
    exec (.ldVxK x) s = .next (s.noteKeyRead.setPc (s.pc - 2)) :=
  congrArg (fun key => Host.Outcome.next (s.noteKeyRead.takeKey x key)) h

/-- R45, R88: PC goes back by what the pre-advance added, so a blocked Fx0A leaves the state before its step but for the model's
reading counter. -/
theorem exec_ldVxK_preAdvance_of_no_key (x : Reg) (h : s.keySnapshot = none) :
    exec (.ldVxK x) s.preAdvance = .next { s with keyReads := s.keyReads + 1 } := by
  have hpc : s.preAdvance.pc - 2 = s.pc := add_sub_cancel_right s.pc 2
  rw [exec_ldVxK_of_no_key x (s.preAdvance_keySnapshot.trans h), hpc]
  rfl

theorem stepReport_of_instr {w : Word} {i : Instr} (h : s.fault = none) (hw : s.fetchWord = some w)
    (hd : decodeWord w = .instr i) : stepReport s = execReport i s.preAdvance := by simp only [stepReport, h, hw, hd]

/-- R95: where no fault stands after the instruction, the report is Blocked or Ok. -/
theorem execReport_of_fault_none {i : Instr} (h : exec i s = .next t) (ht : t.fault = none) :
    execReport i s = some (if blocks i s then .blocked else .ok) := by simp only [execReport, h, ht]

theorem blocks_ldVxK_of_no_key (x : Reg) (h : s.keySnapshot = none) : blocks (.ldVxK x) s = true := decide_eq_true h

end Sys2Proof.Machine

namespace Sys2Proof.Claims

open Sys2Proof.Machine

/-! ### The timer and key instructions (44_timers_keys.md) -/

/-- Settles O41: with a key, one register write; with none, PC goes back to the Fx0A and no fault stands, so the report is Blocked. -/
theorem keyWaitBlocksUntilAKey : Obligations.KeyWaitBlocksUntilAKey := by
  constructor
  · intro s x k hkey
    refine ⟨_, exec_ldVxK_of_key x hkey, ?code, fun _ hr => s.noteKeyRead.getV_setV_other _ hr, rfl⟩
    case code => rw [State.getV_setV_same, BitVec.toNat_setWidth_of_le (by decide)]
  · intro s x hx hkey
    obtain ⟨hfault, hpc, hd⟩ := hx
    have hw := s.fetchWord_eq_some hpc
    have hexec := exec_ldVxK_preAdvance_of_no_key x hkey
    constructor
    · rw [step_of_instr hfault hw hd, hexec]
    · rw [stepReport_of_instr hfault hw hd, execReport_of_fault_none hexec hfault,
        if_pos (blocks_ldVxK_of_no_key x (s.preAdvance_keySnapshot.trans hkey))]

/-- Settles O40: the condition of both skips is `keyEquals`, and each writes PC by it. -/
theorem keySkipsCompareTheSnapshot : Obligations.KeySkipsCompareTheSnapshot := by
  intro s x
  rw [← keyEquals_iff_exists s.keySnapshot (s.getV x)]
  exact ⟨⟨_, exec_skp_eq x, rfl, fun h => if_pos h, fun h => if_neg h⟩,
    ⟨_, exec_sknp_eq x, rfl, fun h => if_pos h, fun h => if_neg h⟩⟩

/-- Settles O42: one register write, and one write of each timer. -/
theorem timerInstructionsMoveOneByte : Obligations.TimerInstructionsMoveOneByte :=
  fun s x => ⟨⟨_, rfl, s.getV_setV_same x s.dt, regFrame_setV x s.dt⟩, rfl, rfl⟩

end Sys2Proof.Claims

namespace Sys2Proof

/-! ### An illegal word is named by itself (R47, R93) -/

/-- A word is illegal only past every comparison that would select an instruction. -/
theorem unknown_of_ite_instr {c : Prop} [Decidable c] {i : Instr} {d : Decoded} {u : Word}
    (h : (if c then .instr i else d) = .unknownInstruction u) : d = .unknownInstruction u := by
  split at h
  · cases h
  · exact h

theorem eq_of_decodeFamily8_unknown {w u : Word} (h : decodeFamily8 w = .unknownInstruction u) : u = w := by
  unfold decodeFamily8 at h
  split at h <;> cases h
  rfl

theorem eq_of_decodeFamilyE_unknown {w u : Word} (h : decodeFamilyE w = .unknownInstruction u) : u = w := by
  unfold decodeFamilyE at h
  iterate 2 replace h := unknown_of_ite_instr h
  cases h; rfl

theorem eq_of_decodeFamilyF_unknown {w u : Word} (h : decodeFamilyF w = .unknownInstruction u) : u = w := by
  unfold decodeFamilyF at h
  iterate 9 replace h := unknown_of_ite_instr h
  cases h; rfl

/-- Families 5 and 9 have illegal words by the low nibble, 8, E and F by a decoder of their own, and family 0 has nothing else left; the
cases carry the families' numbers. -/
theorem eq_of_decodeFamily_unknown {w u : Word} (h : decodeFamily w = .unknownInstruction u) : u = w := by
  unfold decodeFamily at h
  split at h
  case h_5 | h_9 => cases unknown_of_ite_instr h; rfl
  case h_8 => exact eq_of_decodeFamily8_unknown h
  case h_14 => exact eq_of_decodeFamilyE_unknown h
  case h_15 => exact eq_of_decodeFamilyF_unknown h
  all_goals cases h
  rfl

theorem eq_of_decodeWord_unknown {w u : Word} (h : decodeWord w = .unknownInstruction u) : u = w :=
  eq_of_decodeFamily_unknown (unknown_of_ite_instr (unknown_of_ite_instr h))

end Sys2Proof

namespace Sys2Proof.Machine

variable {s t : State}

/-! ### Taking a fatal fault (R91, R94) -/

/-- R94: what raising a fault after the pre-advance leaves of the state before it: PC is the fetch address again. -/
theorem State.raiseInExec_preAdvance (f : Word → Fault) :
    s.preAdvance.raiseInExec f = { s with fault := some (f s.pc) } := by
  have hpc : s.preAdvance.pc - 2 = s.pc := add_sub_cancel_right s.pc 2
  rw [State.raiseInExec, hpc]
  rfl

/-- R32, R91: a checked range raises no fault, or one at the PC of the instruction and nothing else. -/
theorem State.withRange_fault_cases {n : Nat} {done : State} (hdone : done.fault = none) :
    (s.withRange n done).fault = none ∨
      ∃ f : Word → Fault, (∀ pc, (f pc).pc = pc) ∧ s.withRange n done = s.raiseInExec f := by
  obtain ⟨-, e⟩ | ⟨-, e⟩ := s.withRange_cases n done
  · exact .inl (by rwa [e])
  · exact .inr ⟨_, fun _ => rfl, e⟩

/-- R91, R94: an instruction leaves no fault, or it has raised one and done nothing else. The six that can raise one do so at a bound
of the stack or in a range check. -/
theorem exec_fault_cases {i : Instr} (hs : s.fault = none) (h : exec i s = .next t) :
    t.fault = none ∨ ∃ f : Word → Fault, (∀ pc, (f pc).pc = pc) ∧ t = s.raiseInExec f := by
  cases i <;> cases h
  case ret =>
    split
    · exact .inr ⟨.stackUnderflow, fun _ => rfl, rfl⟩
    · exact .inl hs
  case call =>
    split
    · exact .inl hs
    · exact .inr ⟨.stackOverflow, fun _ => rfl, rfl⟩
  case drw | ldB | ldMemVx | ldVxMem => exact State.withRange_fault_cases (by simp [hs])
  case seByte | sneByte | seReg | sneReg | skp | sknp => exact .inl ((State.skipIf_fault _ _).trans hs)
  case ldVxK => exact .inl ((State.takeKey_fault _ _ _).trans hs)
  all_goals exact .inl hs

/-- R94: a step that leaves a fault record has changed nothing else, and the record's PC is the fetch address. -/
theorem step_of_fatal {f : Fault} (h : step s = .next t) (ht : t.fault = some f) :
    t = { s with fault := some f } ∧ f.pc = s.pc := by
  obtain ⟨hs, ⟨-, rfl⟩ | ⟨_, _, -, -, rfl⟩ | ⟨_, i, -, -, he⟩⟩ := step_cases h
  · cases ht; exact ⟨rfl, rfl⟩
  · cases hs.symm.trans ht
  · obtain hnone | ⟨g, hg, rfl⟩ := exec_fault_cases (s := s.preAdvance) hs he
    · cases hnone.symm.trans ht
    · rw [State.raiseInExec_preAdvance] at ht ⊢
      cases ht
      exact ⟨rfl, hg s.pc⟩

/-! ### The tick and the load (R97, R94, R110) -/

theorem tick60Hz_of_fault_none (h : s.fault = none) : tick60Hz s = .next s.tick := by simp only [tick60Hz, h]

theorem countDown_toNat (b : Byte) : (countDown b).toNat = b.toNat - 1 := by
  have := b.isLt
  unfold countDown
  split
  · rw [BitVec.toNat_ofNat]; omega
  · next h => rw [not_not.mp h]; rfl

theorem tickRequest_of_tick_st_ne_zero (h : s.tick.st ≠ 0) : tickRequest s = .startTone := if_pos h

theorem tickRequest_of_tick_st_eq_zero (h : s.tick.st = 0) : tickRequest s = .stopTone := if_neg (not_not.mpr h)

/-- R110, R113: a load leaves the faulted state exactly if the image fits. -/
theorem State.load_fault_eq_none_iff (h : s.fault ≠ none) (image : List Byte) :
    (s.load image).fault = none ↔ image.length ≤ 3584 := by
  by_cases hfit : imageFits image = true
  · rw [s.load_of_fits image hfit]
    exact iff_of_true rfl (of_decide_eq_true hfit)
  · rw [s.load_of_not_fits image (Bool.eq_false_iff.mpr hfit)]
    exact iff_of_false h fun hlen => hfit (decide_eq_true hlen)

theorem runOps_cons_of_next {op : HostOp} {ops : List HostOp} (h : applyOp op s = .next t) :
    runOps (op :: ops) s = runOps ops t := by simp only [runOps, h]

/-! ### What a step returns, one equation per branch (R95) -/

theorem stepReport_of_fetch_none (h : s.fault = none) (hw : s.fetchWord = none) :
    stepReport s = some (.fatal (.outOfBoundsMemoryAccess s.pc (firstOutOfRange s.pc.toNat))) := by
  simp only [stepReport, h, hw]

theorem stepReport_of_unknown {w u : Word} (h : s.fault = none) (hw : s.fetchWord = some w)
    (hd : decodeWord w = .unknownInstruction u) : stepReport s = some (.nonFatal .unknownInstruction s.pc u) := by
  simp only [stepReport, h, hw, hd]

theorem execReport_of_fault_some {i : Instr} {f : Fault} (h : exec i s = .next t) (ht : t.fault = some f) :
    execReport i s = some (.fatal f) := by simp only [execReport, h, ht]

theorem blocks_iff (i : Instr) : blocks i s = true ↔ (∃ x, i = .ldVxK x) ∧ s.keySnapshot = none := by
  cases i
  case ldVxK x => simp [blocks]
  all_goals exact iff_of_false Bool.false_ne_true (by rintro ⟨⟨x, hx⟩, -⟩; cases hx)

/-! ### Which instructions read the key (R103) -/

/-- R32: the range checked does not depend on the key source, so what the instruction does depends on it only if its effect does. -/
theorem State.withRange_setKeyInput (n : Nat) {done done' : State} (k : KeyInput) (h : done' = done.setKeyInput k) :
    (s.setKeyInput k).withRange n done' = (s.withRange n done).setKeyInput k := by
  rw [State.withRange, State.withRange, apply_ite (State.setKeyInput · k), h]; rfl

theorem State.skipIf_setKeyInput (c : Prop) [Decidable c] (k : KeyInput) :
    (s.setKeyInput k).skipIf c = (s.skipIf c).setKeyInput k := by
  rw [State.skipIf, State.skipIf, apply_ite (State.setKeyInput · k)]; rfl

/-- R103: an instruction that does not read the key does the same with any key source. Those that branch do so on SP, a register or I. -/
theorem exec_setKeyInput {i : Instr} (hkey : ¬ Claims.readsKey i) (h : exec i s = .next t) (k : KeyInput) :
    exec i (s.setKeyInput k) = .next (t.setKeyInput k) := by
  cases i <;> cases h
  case skp | sknp | ldVxK => exact absurd trivial hkey
  case ret | call => rw [apply_ite (State.setKeyInput · k)]; rfl
  case seByte | sneByte | seReg | sneReg => exact congrArg Host.Outcome.next (State.skipIf_setKeyInput _ k)
  case drw | ldB | ldMemVx | ldVxMem => exact congrArg Host.Outcome.next (State.withRange_setKeyInput _ k rfl)
  all_goals rfl

end Sys2Proof.Machine

namespace Sys2Proof.Claims

open Sys2Proof.Machine

variable {s : State}

/-! ### Steps and what they return (60_exceptions.md) -/

theorem executes_of_fetchWord {w : Word} {i : Instr} (h : s.fault = none) (hw : s.fetchWord = some w)
    (hd : decodeWord w = .instr i) : Executes s i := by
  have hpc := State.pc_le_of_fetchWord hw
  rw [s.fetchWord_eq_some hpc] at hw
  cases hw
  exact ⟨h, hpc, hd⟩

/-- R95: what each outcome of a step from `s` to `t` says of it (the fatal next state: log 3; the counter: log 5). -/
def SaysWhatTheStepDid (s t : State) : StepReport → Prop
  | .ok => t.fault = none ∧ ∃ i, Executes s i
  | .blocked => (∃ x, Executes s (.ldVxK x)) ∧ s.keySnapshot = none ∧ t = { s with keyReads := s.keyReads + 1 }
  | .nonFatal k pc w => k = .unknownInstruction ∧ pc = s.pc ∧ s.fetchWord = some w ∧
      decodeWord w = .unknownInstruction w ∧ t = { s with pc := s.pc + 2 }
  | .fatal f => t = { s with fault := some f }

/-- R95, for a step that executes an instruction: it raises a fault, it is blocked, or it completes. -/
theorem exists_execReport {w : Word} {i : Instr} (h : s.fault = none) (hw : s.fetchWord = some w)
    (hd : decodeWord w = .instr i) :
    ∃ t r, exec i s.preAdvance = .next t ∧ execReport i s.preAdvance = some r ∧ SaysWhatTheStepDid s t r := by
  have hexecutes := executes_of_fetchWord h hw hd
  obtain ⟨t, he⟩ := exists_exec_eq_next i s.preAdvance
  obtain ht | ⟨f, -, rfl⟩ := exec_fault_cases (s := s.preAdvance) h he
  · have hreport := execReport_of_fault_none he ht
    by_cases hb : blocks i s.preAdvance = true
    · rw [if_pos hb] at hreport
      obtain ⟨⟨x, rfl⟩, hkey⟩ := (blocks_iff i).mp hb
      exact ⟨_, _, exec_ldVxK_preAdvance_of_no_key x hkey, hreport, ⟨x, hexecutes⟩, hkey, rfl⟩
    · rw [if_neg hb] at hreport
      exact ⟨t, _, he, hreport, ht, i, hexecutes⟩
  · rw [State.raiseInExec_preAdvance] at he
    exact ⟨_, _, he, execReport_of_fault_some he rfl, rfl⟩

/-- R95: one case for each way a step can go: the fetch faults, the word is illegal, or an instruction executes. -/
theorem exists_stepReport (h : s.fault = none) :
    ∃ t r, step s = .next t ∧ stepReport s = some r ∧ SaysWhatTheStepDid s t r := by
  cases hw : s.fetchWord with
  | none => exact ⟨_, _, step_of_fetch_none h hw, stepReport_of_fetch_none h hw, rfl⟩
  | some w =>
    cases hd : decodeWord w with
    | unknownInstruction u =>
      obtain rfl := eq_of_decodeWord_unknown hd
      exact ⟨_, _, step_of_unknown h hw hd, stepReport_of_unknown h hw hd, rfl, rfl, hw, hd, rfl⟩
    | instr i =>
      rw [step_of_instr h hw hd, stepReport_of_instr h hw hd]
      exact exists_execReport h hw hd

/-- Settles O12: the four clauses are `SaysWhatTheStepDid`, one for each outcome. -/
theorem everyStepReturnsOneOutcome : Obligations.EveryStepReturnsOneOutcome := by
  intro s hs
  obtain ⟨t, r, hstep, hreport, hsays⟩ := exists_stepReport hs
  refine ⟨⟨s.tick, tick60Hz_of_fault_none hs⟩, t, r, hstep, hreport, ?_, ?_, ?_, ?_⟩
  · rintro rfl; exact hsays
  · rintro rfl; exact hsays
  · rintro k pc w rfl; exact hsays
  · rintro f rfl; exact hsays

/-- Settles O10: `step_of_fatal`; then step and tick begin without a fault; then one case for each of the host's operations. -/
theorem fatalFaultChangesOnlyTheRecord : Obligations.FatalFaultChangesOnlyTheRecord := by
  refine ⟨fun _ _ _ _ => step_of_fatal,
    fun s hs => ⟨fun t h => hs (step_cases h).1, fun t h => hs (tick60Hz_cases h).1⟩, fun op s t hs h => ?_⟩
  cases op with
  | reset => cases h; simp
  | load image => cases h; simp [State.load_fault_eq_none_iff hs]
  | step => exact absurd (step_cases h).1 hs
  | tick60Hz => exact absurd (tick60Hz_cases h).1 hs
  | setKeyInput k => cases h; simp [hs]

/-- Settles O43: the blocked step moves the reading counter alone and the tick the timers, so the Fx0A still stands at PC with no key. -/
theorem ticksGoOnWhileBlocked : Obligations.TicksGoOnWhileBlocked := by
  intro s x hx hinput
  have blocked (u : State) (hu : Executes u (.ldVxK x)) (hin : u.keyInput = .fixed none) :=
    keyWaitBlocksUntilAKey.2 u x hu (by rw [State.keySnapshot, hin])
  have hstep : applyOp .step s = .next s.noteKeyRead := (blocked s hx hinput).1
  have htick : applyOp .tick60Hz s.noteKeyRead = .next s.noteKeyRead.tick := tick60Hz_of_fault_none hx.1
  have hrun : runOps [.step, .tick60Hz] s = .next s.noteKeyRead.tick := by
    rw [runOps_cons_of_next hstep, runOps_cons_of_next htick, runOps]
  exact ⟨_, hrun, countDown_toNat s.dt, countDown_toNat s.st, rfl, rfl, (blocked s.noteKeyRead.tick hx hinput).2⟩

/-- Settles O53, by `exec_setKeyInput`. -/
theorem onlyKeyInstructionsReadTheKey : Obligations.OnlyKeyInstructionsReadTheKey :=
  fun _ _ _ k hkey h => exec_setKeyInput hkey h k

/-- Settles O6: the request and `toneOn` both follow the counted-down ST. -/
theorem tickCountsDownAndRequestsTheTone : Obligations.TickCountsDownAndRequestsTheTone := by
  intro s
  refine ⟨fun hs => ⟨s.tick, tick60Hz_of_fault_none hs, countDown_toNat s.dt, countDown_toNat s.st, fun hst => ?_,
    fun hst => ?_, rfl⟩, fun hs t h => hs (tick60Hz_cases h).1⟩
  · simp [tickRequest_of_tick_st_ne_zero hst]
  · simp [tickRequest_of_tick_st_eq_zero hst]

/-- Settles O8, by the branch of an illegal word in the step and in its report. -/
theorem illegalWordOnlyAdvancesPc : Obligations.IllegalWordOnlyAdvancesPc :=
  fun _ _ hs hw hd => ⟨step_of_unknown hs hw hd, stepReport_of_unknown hs hw hd⟩

end Sys2Proof.Claims

namespace Sys2Proof.Machine

variable {s t : State}

/-! ### Reset and load (R111 to R114) -/

theorem State.resetCore_resetCore : s.resetCore.resetCore = s.resetCore := rfl

theorem imageFits_eq_true_iff (image : List Byte) : imageFits image = true ↔ image.length ≤ 3584 := decide_eq_true_iff

theorem imageFits_eq_false_iff (image : List Byte) : imageFits image = false ↔ 3584 < image.length :=
  decide_eq_false_iff_not.trans Nat.not_le

theorem loadReport_of_fits {image : List Byte} (h : imageFits image = true) : loadReport image = .ok := if_pos h

theorem loadReport_of_not_fits {image : List Byte} (h : imageFits image = false) :
    loadReport image = .loadTooLarge image.length := if_neg (Bool.eq_false_iff.mp h)

theorem State.readByte_load_inside {image : List Byte} (h : imageFits image = true) (j : Nat) (hj : j < image.length) :
    (s.load image).readByte (Config.loadOffset + j) = image[j] := by
  have hlen := (imageFits_eq_true_iff image).mp h
  rw [s.load_of_fits image h]
  exact State.readByte_writeBytes_inside image _ j hj (by simp only [Config.loadOffset]; omega)
    (State.constructed_mem_wf s.params)

theorem State.readByte_load_outside {image : List Byte} (h : imageFits image = true) {a : Nat}
    (ha : a < Config.loadOffset ∨ Config.loadOffset + image.length ≤ a) :
    (s.load image).readByte a = s.resetCore.readByte a := by
  rw [s.load_of_fits image h]
  exact State.readByte_writeBytes_outside image ha

/-- R112: a load that fits differs from a reset in memory alone. -/
theorem State.load_frame {image : List Byte} (h : imageFits image = true) :
    s.load image = { s.resetCore with mem := (s.load image).mem } := by
  rw [s.load_of_fits image h]; rfl

/-- R112: PC after a load that fits. -/
theorem State.load_pc {image : List Byte} (h : imageFits image = true) : (s.load image).pc = 0x200 :=
  congrArg State.pc (State.load_frame h)

theorem State.load_fault {image : List Byte} (h : imageFits image = true) : (s.load image).fault = none :=
  congrArg State.fault (State.load_frame h)

/-- R114: the word fetched after a load is the image's first two bytes, big-endian. -/
theorem State.fetchWord_load {hi lo : Byte} {rest : List Byte} (h : imageFits (hi :: lo :: rest) = true) :
    (s.load (hi :: lo :: rest)).fetchWord = some (wordOfBytes hi lo) := by
  have hpc : (s.load (hi :: lo :: rest)).pc.toNat = 0x200 := congrArg BitVec.toNat (State.load_pc h)
  have hhi : (s.load (hi :: lo :: rest)).readByte 0x200 = hi := State.readByte_load_inside h 0 (by simp)
  have hlo : (s.load (hi :: lo :: rest)).readByte (0x200 + 1) = lo := State.readByte_load_inside h 1 (by simp)
  rw [State.fetchWord_eq_some _ (by omega), hpc, hhi, hlo]

/-! ### The timers (R14, R121) -/

@[simp] theorem State.withRange_dt (n : Nat) (done : State) :
    (s.withRange n done).dt = if inRange s.i.toNat n then done.dt else s.dt := apply_ite State.dt _ _ _
@[simp] theorem State.withRange_st (n : Nat) (done : State) :
    (s.withRange n done).st = if inRange s.i.toNat n then done.st else s.st := apply_ite State.st _ _ _

/-- R89, R90: among the instructions DT has the one writer Fx15 and ST the one writer Fx18. RET and CALL keep both at either bound of
the stack; the others are compositions of updates and checked ranges whose laws say it. -/
theorem exec_timer_writers {i : Instr} (h : exec i s = .next t) :
    (t.dt ≠ s.dt → ∃ x, i = .ldDtVx x) ∧ (t.st ≠ s.st → ∃ x, i = .ldStVx x) := by
  cases i <;> cases h
  case ret | call => split <;> simp
  all_goals simp

/-- A run of `n + 1` steps that ends in a state is one step and a run of `n`. -/
theorem exists_step_of_run_succ {M : Host.Core} {n : Nat} {s t : M.State} (h : M.run (n + 1) s = .next t) :
    ∃ u, M.step s = .next u ∧ M.run n u = .next t := by
  rw [Host.Core.run] at h
  split at h
  · next u hu => exact ⟨u, hu, h⟩
  · cases h
  · cases h

/-- R54: the jump undoes the pre-advance when its target is its own address. -/
theorem exec_jp_preAdvance_of_self {nnn : Addr12} (h : zextAddr nnn = s.pc) : exec (.jp nnn) s.preAdvance = .next s := by
  change Host.Outcome.next (s.preAdvance.setPc (zextAddr nnn)) = _
  rw [h]; rfl

end Sys2Proof.Machine

namespace Sys2Proof.Claims

open Sys2Proof.Machine

variable {s t : State}

/-- R121: a step that moves a timer executed the instruction that writes it; a fetch fault and an illegal word move neither. -/
theorem step_timer_writers (h : step s = .next t) :
    (t.dt ≠ s.dt → ∃ x, Executes s (.ldDtVx x)) ∧ (t.st ≠ s.st → ∃ x, Executes s (.ldStVx x)) := by
  obtain ⟨hs, ⟨-, rfl⟩ | ⟨_, _, -, -, rfl⟩ | ⟨w, i, hw, hd, he⟩⟩ := step_cases h
  · simp
  · simp
  · have hexecutes := executes_of_fetchWord hs hw hd
    obtain ⟨hdt, hst⟩ := exec_timer_writers he
    constructor
    · intro hne
      obtain ⟨x, rfl⟩ := hdt hne
      exact ⟨x, hexecutes⟩
    · intro hne
      obtain ⟨x, rfl⟩ := hst hne
      exact ⟨x, hexecutes⟩

theorem step_keeps_timers (hnone : ∀ x, ¬ Executes s (.ldDtVx x) ∧ ¬ Executes s (.ldStVx x)) (h : step s = .next t) :
    t.dt = s.dt ∧ t.st = s.st := by
  obtain ⟨hdt, hst⟩ := step_timer_writers h
  exact ⟨by_contra fun hne => (hdt hne).elim fun x => (hnone x).1, by_contra fun hne => (hst hne).elim fun x => (hnone x).2⟩

/-! ### Reset, load and the hazards (70_reset_and_hazards.md) -/

/-- Settles O3: the image is written over the reset state, whose memory is in canonical form. -/
theorem loadCopiesTheImageOverTheResetState : Obligations.LoadCopiesTheImageOverTheResetState := by
  intro s image hlen
  have hfits := (imageFits_eq_true_iff image).mpr hlen
  exact ⟨loadReport_of_fits hfits, s.load image, rfl, State.load_frame hfits, State.readByte_load_inside hfits,
    fun _ ha => State.readByte_load_outside hfits ha⟩

/-- Settles O4: the word fetched after a load is the image's first, and PC was 0x200. -/
theorem firstStepAfterLoadRunsTheImage : Obligations.FirstStepAfterLoadRunsTheImage := by
  intro s hi lo rest i hlen hd
  have hfits : imageFits (hi :: lo :: rest) = true := (imageFits_eq_true_iff _).mpr hlen
  rw [step_of_instr (State.load_fault hfits) (State.fetchWord_load hfits) hd, State.preAdvance, State.load_pc hfits]
  rfl

/-- Settles O51: one case for each of the host's operations; only the step needs its writers named. -/
theorem onlyTicksAndTimerWritesChangeTimers : Obligations.OnlyTicksAndTimerWritesChangeTimers := by
  intro op s t h
  cases op with
  | reset => simp
  | load image => simp
  | step =>
    obtain ⟨hdt, hst⟩ := step_timer_writers h
    exact ⟨fun hne => .inr (.inr (.inr ⟨rfl, hdt hne⟩)), fun hne => .inr (.inr (.inr ⟨rfl, hst hne⟩))⟩
  | tick60Hz => simp
  | setKeyInput k => cases h; simp

/-- Settles O52, by induction on the number of steps. -/
theorem stepsAloneLeaveTheTimers : Obligations.StepsAloneLeaveTheTimers := by
  intro n
  induction n with
  | zero => intro s t _ h; cases h; exact ⟨rfl, rfl⟩
  | succ n ih =>
    intro s t ⟨hnone, hlater⟩ h
    obtain ⟨u, hstep, hrun⟩ := exists_step_of_run_succ h
    obtain ⟨hdt, hst⟩ := step_keeps_timers hnone hstep
    obtain ⟨hdt', hst'⟩ := ih u t (hlater u hstep) hrun
    exact ⟨hdt'.trans hdt, hst'.trans hst⟩

/-- Settles O2, by `State.resetCore_resetCore`. -/
theorem resetTwiceIsResetOnce : Obligations.ResetTwiceIsResetOnce := by
  intro s t u hst htu
  cases hst
  cases htu
  exact State.resetCore_resetCore

/-- Settles O5, by the branch of an image that does not fit in the load and in its report. -/
theorem loadTooLargeChangesNothing : Obligations.LoadTooLargeChangesNothing := by
  intro s image hlen
  have hfits := (imageFits_eq_false_iff image).mpr hlen
  exact ⟨loadReport_of_not_fits hfits, congrArg Host.Outcome.next (s.load_of_not_fits image hfits)⟩

/-- Settles O13: the step executes the jump, and the jump undoes the pre-advance. -/
theorem selfJumpStepChangesNothing : Obligations.SelfJumpStepChangesNothing :=
  fun _ ⟨hs, _, _, hw, hd, hself⟩ => (step_of_instr hs hw hd).trans (exec_jp_preAdvance_of_self hself)

end Sys2Proof.Claims

namespace Sys2Proof.Claims

open Sys2Proof.Machine

variable {s t : State}

/-! ### The fetch and the fatal faults (60_exceptions.md) -/

/-- Settles O9, by the two branches of the fetch. -/
theorem fetchIsBigEndianAndFaultsPastTheEnd : Obligations.FetchIsBigEndianAndFaultsPastTheEnd :=
  fun s => ⟨fun hpc => ⟨_, s.fetchWord_eq_some hpc, wordOfBytes_toNat _ _⟩,
    fun hpc hs => step_of_fetch_none hs (s.fetchWord_eq_none hpc)⟩

theorem executes_iff_of_fetchWord {w : Word} {i : Instr} (h : s.fault = none) (hw : s.fetchWord = some w) :
    Executes s i ↔ decodeWord w = .instr i := by
  refine ⟨fun ⟨_, hpc, hd⟩ => ?_, executes_of_fetchWord h hw⟩
  rw [s.fetchWord_eq_some hpc] at hw
  cases hw
  exact hd

theorem lt_pc_of_fetchWord_eq_none (hw : s.fetchWord = none) : 4094 < s.pc.toNat := by
  by_contra hpc
  rw [s.fetchWord_eq_some (Nat.le_of_not_lt hpc)] at hw
  cases hw

/-- R91: the fatal fault that executing `i` at `s` raises, and where it does: the table's rows but for the fetch (addresses: log 4). -/
def Raises (s : State) (i : Instr) (f : Fault) : Prop :=
  (i = .ret ∧ s.sp = 0 ∧ f = .stackUnderflow s.pc) ∨
  (∃ nnn, i = .call nnn ∧ s.sp = s.params.stackDepth ∧ f = .stackOverflow s.pc) ∨
  ∃ n, rangeBytes i = some n ∧ 0 < n ∧ 4095 < s.i.toNat + n - 1 ∧
    f = .outOfBoundsMemoryAccess s.pc (max s.i.toNat 4096)

theorem raiseInExec_preAdvance_fault_iff {f : Fault} (g : Word → Fault) :
    (s.preAdvance.raiseInExec g).fault = some f ↔ f = g s.pc := by
  rw [State.raiseInExec_preAdvance]
  exact Option.some_inj.trans eq_comm

/-- R32, R91: a checked range raises exactly the fault of a range that leaves memory. -/
theorem withRange_preAdvance_fault_iff {n : Nat} {done : State} {f : Fault} (hdone : done.fault = none) :
    (s.preAdvance.withRange n done).fault = some f ↔
      0 < n ∧ 4095 < s.i.toNat + n - 1 ∧ f = .outOfBoundsMemoryAccess s.pc (max s.i.toNat 4096) := by
  obtain ⟨hin, e⟩ | ⟨hout, e⟩ := s.preAdvance.withRange_cases n done
  · rw [State.preAdvance_i] at hin
    rw [e, hdone]
    exact iff_of_false nofun fun ⟨hn, hi, _⟩ => by omega
  · rw [State.preAdvance_i] at hout
    rw [e, raiseInExec_preAdvance_fault_iff, ← and_assoc]
    exact (and_iff_right (by omega)).symm

/-- R91, R96: an instruction leaves exactly the fault it raises. RET and CALL raise theirs at a bound of the stack, four instructions in
a range check, the skips and the rest none. -/
theorem exec_fault_iff {i : Instr} {f : Fault} (hs : s.fault = none) (hsp : s.sp ≤ s.params.stackDepth)
    (h : exec i s.preAdvance = .next t) : t.fault = some f ↔ Raises s i f := by
  cases i
  case ret =>
    by_cases hz : s.sp = 0
    · cases h.symm.trans (exec_ret_of_sp_zero hz)
      simp [Raises, rangeBytes, hz, eq_comm]
    · cases h.symm.trans (exec_ret_of_sp_pos (Nat.pos_of_ne_zero hz))
      simp [Raises, rangeBytes, hs, hz]
  case call nnn =>
    by_cases hfull : s.sp = s.params.stackDepth
    · cases h.symm.trans (exec_call_of_full nnn hfull.ge)
      simp [Raises, rangeBytes, hfull, eq_comm]
    · cases h.symm.trans (exec_call_of_room nnn (lt_of_le_of_ne hsp hfull))
      simp [Raises, rangeBytes, hs, hfull]
  case drw | ldB | ldMemVx | ldVxMem =>
    cases h
    simp [Raises, rangeBytes, withRange_preAdvance_fault_iff, hs]
  case seByte | sneByte | seReg | sneReg | skp | sknp =>
    cases h
    rw [State.skipIf_fault]
    simp [Raises, rangeBytes, hs]
  all_goals
    cases h
    simp [Raises, rangeBytes, hs]

/-- Settles O11: one case for each way a step can go, each with the instructions it executes: none, none, and the decoded one. -/
theorem fatalFaultsAreTakenExactlyWhereListed : Obligations.FatalFaultsAreTakenExactlyWhereListed := by
  intro s t f hs hsp h
  obtain ⟨-, ⟨hw, rfl⟩ | ⟨w, u, hw, hd, rfl⟩ | ⟨w, i, hw, hd, he⟩⟩ := step_cases h
  · have hpc := lt_pc_of_fetchWord_eq_none hw
    have hnone (i : Instr) : ¬ Executes s i := fun ⟨_, hle, _⟩ => absurd hle hpc.not_ge
    simp [hpc, hnone, firstOutOfRange, eq_comm]
  · have hpc := (State.pc_le_of_fetchWord hw).not_gt
    have hnone (i : Instr) : ¬ Executes s i := by simp [executes_iff_of_fetchWord hs hw, hd]
    simp [hpc, hnone, hs]
  · have hpc := (State.pc_le_of_fetchWord hw).not_gt
    have honly (j : Instr) : Executes s j ↔ i = j := by simp [executes_iff_of_fetchWord hs hw, hd]
    rw [exec_fault_iff hs hsp he]
    simp [hpc, honly, Raises]

end Sys2Proof.Claims
